-- ==== Sys2Proof/Word.lean ====
section
/-! DEFINITION. The two word sizes of the core (00_scope.md R5, R9): the 8-bit byte and the 16-bit address. -/

namespace Sys2Proof

/-- A `u8` of R9: a register or a memory byte. -/
abbrev Byte := BitVec 8

/-- A `u16` of R9: an address or the program counter. -/
abbrev Word := BitVec 16

end Sys2Proof
end

