-- ==== Sys2Proof/Syntax.lean ====
section
/-! DEFINITION. The syntax: the 56 mnemonics (00_scope.md R2), the 13 addressing modes (41_addressing.md R140) with their operand fields (30_encoding.md R92), and one constructor of `Instr` per row of spec/opcode_table.json (R95). -/

namespace Sys2Proof

/-- The 56 mnemonics (R2, R96). -/
inductive Mnemonic where
  -- loads and stores (42_load_store.md)
  | lda | ldx | ldy | sta | stx | sty
  -- arithmetic and logic (43_arith_logic.md)
  | adc | sbc | and | ora | eor | bit
  -- shifts and rotates (44_shift_rotate.md)
  | asl | lsr | rol | ror
  -- compares, increments, decrements (45_compare_incdec.md)
  | cmp | cpx | cpy | inc | dec | inx | iny | dex | dey
  -- branches (46_branch.md)
  | bcc | bcs | bne | beq | bpl | bmi | bvc | bvs
  -- jumps and returns (47_jump_subroutine.md)
  | jmp | jsr | rts | rti
  -- stack (48_stack.md)
  | pha | php | pla | plp
  -- flags, transfers, NOP, BRK (49_flags_transfer_misc.md)
  | sec | clc | sed | cld | sei | cli | clv | tax | txa | tay | tya | tsx | txs | nop | brk
deriving DecidableEq, Repr

/-- The 13 addressing modes (R140). -/
inductive Mode where
  | accumulator | immediate | implied | relative | absolute | zeroPage | indirect
  | absoluteX | absoluteY | zeroPageX | zeroPageY | indexedIndirect | indirectIndexed
deriving DecidableEq, Repr

/-- The operands of the ten modes that give an effective address (R141's kind `Addr`), with the operand field of R92. -/
inductive MemOperand where
  | immediate       (imm : Byte)
  | zeroPage        (zp : Byte)
  | zeroPageX       (zp : Byte)
  | zeroPageY       (zp : Byte)
  | absolute        (addr : Word)
  | absoluteX       (addr : Word)
  | absoluteY       (addr : Word)
  | indirect        (ptr : Word)
  | indexedIndirect (zp : Byte)
  | indirectIndexed (zp : Byte)
deriving DecidableEq, Repr

/-- An operand, by R141's kinds: `Acc`, no operand, `Addr` or `Off`. -/
inductive Operand where
  | accumulator
  | implied
  | memory   (m : MemOperand)
  | relative (rel : Byte)
deriving DecidableEq, Repr

/-- The instructions: one constructor per row of spec/opcode_table.json (R95), named by its mnemonic and the mode's
short name in R95's map, with its operand field. `Relative` and `Implied` rows carry the mnemonic alone. -/
inductive Instr where
  -- loads and stores (42_load_store.md)
  | ldaIzx (zp : Byte)
  | ldaZp (zp : Byte)
  | ldaImm (imm : Byte)
  | ldaAbs (addr : Word)
  | ldaIzy (zp : Byte)
  | ldaZpx (zp : Byte)
  | ldaAby (addr : Word)
  | ldaAbx (addr : Word)
  | ldxImm (imm : Byte)
  | ldxZp (zp : Byte)
  | ldxAbs (addr : Word)
  | ldxZpy (zp : Byte)
  | ldxAby (addr : Word)
  | ldyImm (imm : Byte)
  | ldyZp (zp : Byte)
  | ldyAbs (addr : Word)
  | ldyZpx (zp : Byte)
  | ldyAbx (addr : Word)
  | staIzx (zp : Byte)
  | staZp (zp : Byte)
  | staAbs (addr : Word)
  | staIzy (zp : Byte)
  | staZpx (zp : Byte)
  | staAby (addr : Word)
  | staAbx (addr : Word)
  | stxZp (zp : Byte)
  | stxAbs (addr : Word)
  | stxZpy (zp : Byte)
  | styZp (zp : Byte)
  | styAbs (addr : Word)
  | styZpx (zp : Byte)
  -- arithmetic and logic (43_arith_logic.md)
  | adcIzx (zp : Byte)
  | adcZp (zp : Byte)
  | adcImm (imm : Byte)
  | adcAbs (addr : Word)
  | adcIzy (zp : Byte)
  | adcZpx (zp : Byte)
  | adcAby (addr : Word)
  | adcAbx (addr : Word)
  | sbcIzx (zp : Byte)
  | sbcZp (zp : Byte)
  | sbcImm (imm : Byte)
  | sbcAbs (addr : Word)
  | sbcIzy (zp : Byte)
  | sbcZpx (zp : Byte)
  | sbcAby (addr : Word)
  | sbcAbx (addr : Word)
  | andIzx (zp : Byte)
  | andZp (zp : Byte)
  | andImm (imm : Byte)
  | andAbs (addr : Word)
  | andIzy (zp : Byte)
  | andZpx (zp : Byte)
  | andAby (addr : Word)
  | andAbx (addr : Word)
  | oraIzx (zp : Byte)
  | oraZp (zp : Byte)
  | oraImm (imm : Byte)
  | oraAbs (addr : Word)
  | oraIzy (zp : Byte)
  | oraZpx (zp : Byte)
  | oraAby (addr : Word)
  | oraAbx (addr : Word)
  | eorIzx (zp : Byte)
  | eorZp (zp : Byte)
  | eorImm (imm : Byte)
  | eorAbs (addr : Word)
  | eorIzy (zp : Byte)
  | eorZpx (zp : Byte)
  | eorAby (addr : Word)
  | eorAbx (addr : Word)
  | bitZp (zp : Byte)
  | bitAbs (addr : Word)
  -- shifts and rotates (44_shift_rotate.md)
  | aslZp (zp : Byte)
  | aslAcc
  | aslAbs (addr : Word)
  | aslZpx (zp : Byte)
  | aslAbx (addr : Word)
  | lsrZp (zp : Byte)
  | lsrAcc
  | lsrAbs (addr : Word)
  | lsrZpx (zp : Byte)
  | lsrAbx (addr : Word)
  | rolZp (zp : Byte)
  | rolAcc
  | rolAbs (addr : Word)
  | rolZpx (zp : Byte)
  | rolAbx (addr : Word)
  | rorZp (zp : Byte)
  | rorAcc
  | rorAbs (addr : Word)
  | rorZpx (zp : Byte)
  | rorAbx (addr : Word)
  -- compares, increments, decrements (45_compare_incdec.md)
  | cmpIzx (zp : Byte)
  | cmpZp (zp : Byte)
  | cmpImm (imm : Byte)
  | cmpAbs (addr : Word)
  | cmpIzy (zp : Byte)
  | cmpZpx (zp : Byte)
  | cmpAby (addr : Word)
  | cmpAbx (addr : Word)
  | cpxImm (imm : Byte)
  | cpxZp (zp : Byte)
  | cpxAbs (addr : Word)
  | cpyImm (imm : Byte)
  | cpyZp (zp : Byte)
  | cpyAbs (addr : Word)
  | incZp (zp : Byte)
  | incAbs (addr : Word)
  | incZpx (zp : Byte)
  | incAbx (addr : Word)
  | decZp (zp : Byte)
  | decAbs (addr : Word)
  | decZpx (zp : Byte)
  | decAbx (addr : Word)
  | inx
  | iny
  | dex
  | dey
  -- branches (46_branch.md)
  | bcc (rel : Byte)
  | bcs (rel : Byte)
  | bne (rel : Byte)
  | beq (rel : Byte)
  | bpl (rel : Byte)
  | bmi (rel : Byte)
  | bvc (rel : Byte)
  | bvs (rel : Byte)
  -- jumps and returns (47_jump_subroutine.md)
  | jmpAbs (addr : Word)
  | jmpInd (ptr : Word)
  | jsrAbs (addr : Word)
  | rts
  | rti
  -- stack (48_stack.md)
  | pha
  | php
  | pla
  | plp
  -- flags, transfers, NOP, BRK (49_flags_transfer_misc.md)
  | sec
  | clc
  | sed
  | cld
  | sei
  | cli
  | clv
  | tax
  | txa
  | tay
  | tya
  | tsx
  | txs
  | nop
  | brk
deriving DecidableEq, Repr

end Sys2Proof
end

