-- ==== Sys2Proof/Decode.lean ====
section
/-! DEFINITION. Decoding (30_encoding.md R90–R98): the opcode table, the decoder, total on any bytes and rejecting by name, and after it the encoder; with them the byte-order helpers, each instruction's mnemonic, operand and length, and the assembler's text. -/

namespace Sys2Proof

/-! ## Bytes and words (00_scope.md R9) -/

/-- `lo(w)` of R9. -/
def loByte (w : Word) : Byte := w.extractLsb' 0 8

/-- `hi(w)` of R9. -/
def hiByte (w : Word) : Byte := w.extractLsb' 8 8

/-- `zext_16(v)` of R9. -/
def zext16 (v : Byte) : Word := v.setWidth 16

/-- `sext_16(v)` of R9. -/
def sext16 (v : Byte) : Word := v.signExtend 16

/-- `lo | (hi << 8)`: a word from its two bytes, little-endian (R92, 20_memory.md R70). -/
def wordOf (lo hi : Byte) : Word := zext16 lo ||| (zext16 hi <<< 8)

/-! ## The opcode table (R94–R95) -/

/-- The three formats (R91) with the instruction they build from their operand bytes. -/
inductive OpcodeForm where
  | f1 (i : Instr)
  | f2 (mk : Byte → Instr)
  | f3 (mk : Word → Instr)

/-- The mark of a cell of R95's map: no suffix, `p` or `b`. -/
inductive ExtraCycles where
  | none | page | branch
deriving DecidableEq, Repr

/-- One entry: the instruction, its base cycle cost and its mark (R94–R95). -/
structure OpcodeEntry where
  form   : OpcodeForm
  cycles : Nat
  extra  : ExtraCycles

/-- A cell of one byte, two bytes or three bytes; the suffix is R95's `p` or `b`; `un` is a byte with no entry (R98). -/
def e1 (i : Instr) (cycles : Nat) : Option OpcodeEntry := some ⟨.f1 i, cycles, .none⟩
def e2 (mk : Byte → Instr) (cycles : Nat) : Option OpcodeEntry := some ⟨.f2 mk, cycles, .none⟩
def e2p (mk : Byte → Instr) (cycles : Nat) : Option OpcodeEntry := some ⟨.f2 mk, cycles, .page⟩
def e2b (mk : Byte → Instr) (cycles : Nat) : Option OpcodeEntry := some ⟨.f2 mk, cycles, .branch⟩
def e3 (mk : Word → Instr) (cycles : Nat) : Option OpcodeEntry := some ⟨.f3 mk, cycles, .none⟩
def e3p (mk : Word → Instr) (cycles : Nat) : Option OpcodeEntry := some ⟨.f3 mk, cycles, .page⟩
def un : Option OpcodeEntry := none

/-- R95's map, rows 0x to 3x. -/
def opcodeRows0 : List (List (Option OpcodeEntry)) := [
  [e1 .brk 7, e2 .oraIzx 6, un, un, un, e2 .oraZp 3, e2 .aslZp 5, un,
   e1 .php 3, e2 .oraImm 2, e1 .aslAcc 2, un, un, e3 .oraAbs 4, e3 .aslAbs 6, un],
  [e2b .bpl 2, e2p .oraIzy 5, un, un, un, e2 .oraZpx 4, e2 .aslZpx 6, un,
   e1 .clc 2, e3p .oraAby 4, un, un, un, e3p .oraAbx 4, e3 .aslAbx 7, un],
  [e3 .jsrAbs 6, e2 .andIzx 6, un, un, e2 .bitZp 3, e2 .andZp 3, e2 .rolZp 5, un,
   e1 .plp 4, e2 .andImm 2, e1 .rolAcc 2, un, e3 .bitAbs 4, e3 .andAbs 4, e3 .rolAbs 6, un],
  [e2b .bmi 2, e2p .andIzy 5, un, un, un, e2 .andZpx 4, e2 .rolZpx 6, un,
   e1 .sec 2, e3p .andAby 4, un, un, un, e3p .andAbx 4, e3 .rolAbx 7, un]]

/-- R95's map, rows 4x to 7x. -/
def opcodeRows4 : List (List (Option OpcodeEntry)) := [
  [e1 .rti 6, e2 .eorIzx 6, un, un, un, e2 .eorZp 3, e2 .lsrZp 5, un,
   e1 .pha 3, e2 .eorImm 2, e1 .lsrAcc 2, un, e3 .jmpAbs 3, e3 .eorAbs 4, e3 .lsrAbs 6, un],
  [e2b .bvc 2, e2p .eorIzy 5, un, un, un, e2 .eorZpx 4, e2 .lsrZpx 6, un,
   e1 .cli 2, e3p .eorAby 4, un, un, un, e3p .eorAbx 4, e3 .lsrAbx 7, un],
  [e1 .rts 6, e2 .adcIzx 6, un, un, un, e2 .adcZp 3, e2 .rorZp 5, un,
   e1 .pla 4, e2 .adcImm 2, e1 .rorAcc 2, un, e3 .jmpInd 5, e3 .adcAbs 4, e3 .rorAbs 6, un],
  [e2b .bvs 2, e2p .adcIzy 5, un, un, un, e2 .adcZpx 4, e2 .rorZpx 6, un,
   e1 .sei 2, e3p .adcAby 4, un, un, un, e3p .adcAbx 4, e3 .rorAbx 7, un]]

/-- R95's map, rows 8x to Bx. -/
def opcodeRows8 : List (List (Option OpcodeEntry)) := [
  [un, e2 .staIzx 6, un, un, e2 .styZp 3, e2 .staZp 3, e2 .stxZp 3, un,
   e1 .dey 2, un, e1 .txa 2, un, e3 .styAbs 4, e3 .staAbs 4, e3 .stxAbs 4, un],
  [e2b .bcc 2, e2 .staIzy 6, un, un, e2 .styZpx 4, e2 .staZpx 4, e2 .stxZpy 4, un,
   e1 .tya 2, e3 .staAby 5, e1 .txs 2, un, un, e3 .staAbx 5, un, un],
  [e2 .ldyImm 2, e2 .ldaIzx 6, e2 .ldxImm 2, un, e2 .ldyZp 3, e2 .ldaZp 3, e2 .ldxZp 3, un,
   e1 .tay 2, e2 .ldaImm 2, e1 .tax 2, un, e3 .ldyAbs 4, e3 .ldaAbs 4, e3 .ldxAbs 4, un],
  [e2b .bcs 2, e2p .ldaIzy 5, un, un, e2 .ldyZpx 4, e2 .ldaZpx 4, e2 .ldxZpy 4, un,
   e1 .clv 2, e3p .ldaAby 4, e1 .tsx 2, un, e3p .ldyAbx 4, e3p .ldaAbx 4, e3p .ldxAby 4, un]]

/-- R95's map, rows Cx to Fx. -/
def opcodeRowsC : List (List (Option OpcodeEntry)) := [
  [e2 .cpyImm 2, e2 .cmpIzx 6, un, un, e2 .cpyZp 3, e2 .cmpZp 3, e2 .decZp 5, un,
   e1 .iny 2, e2 .cmpImm 2, e1 .dex 2, un, e3 .cpyAbs 4, e3 .cmpAbs 4, e3 .decAbs 6, un],
  [e2b .bne 2, e2p .cmpIzy 5, un, un, un, e2 .cmpZpx 4, e2 .decZpx 6, un,
   e1 .cld 2, e3p .cmpAby 4, un, un, un, e3p .cmpAbx 4, e3 .decAbx 7, un],
  [e2 .cpxImm 2, e2 .sbcIzx 6, un, un, e2 .cpxZp 3, e2 .sbcZp 3, e2 .incZp 5, un,
   e1 .inx 2, e2 .sbcImm 2, e1 .nop 2, un, e3 .cpxAbs 4, e3 .sbcAbs 4, e3 .incAbs 6, un],
  [e2b .beq 2, e2p .sbcIzy 5, un, un, un, e2 .sbcZpx 4, e2 .incZpx 6, un,
   e1 .sed 2, e3p .sbcAby 4, un, un, un, e3p .sbcAbx 4, e3 .incAbx 7, un]]

/-- The opcode table (R94–R95): R95's map, 16 rows of 16 cells, row = high digit, column = low digit. -/
def opcodeMap : List (List (Option OpcodeEntry)) := opcodeRows0 ++ opcodeRows4 ++ opcodeRows8 ++ opcodeRowsC

/-- The table lookup by opcode byte, the whole byte deciding (R93, R97). -/
def opcodeEntry (op : Byte) : Option OpcodeEntry := (opcodeMap.getD (op.toNat / 16) []).getD (op.toNat % 16) none

/-! ## The decoder -/

/-- Why no instruction is read. `unimplementedOpcode` is R98's; `truncated` says that the bytes given end before the
instruction does, which the machine's fetch never meets (log 11). -/
inductive DecodeError where
  | unimplementedOpcode (op : Byte)
  | truncated
deriving DecidableEq, Repr

/-- The operand bytes of a format taken from what follows the opcode (R91–R92). -/
def takeOperand : OpcodeForm → List Byte → Except DecodeError (Instr × List Byte)
  | .f1 i, rest => .ok (i, rest)
  | .f2 mk, b1 :: rest => .ok (mk b1, rest)
  | .f2 _, [] => .error .truncated
  | .f3 mk, b1 :: b2 :: rest => .ok (mk (wordOf b1 b2), rest)
  | .f3 _, [_] => .error .truncated
  | .f3 _, [] => .error .truncated

/-- Reads one instruction and answers it with the bytes left over (R90–R93); a byte with no entry is refused (R98). -/
def decode : List Byte → Except DecodeError (Instr × List Byte)
  | [] => .error .truncated
  | op :: rest =>
    match opcodeEntry op with
    | none => .error (.unimplementedOpcode op)
    | some e => takeOperand e.form rest

/-- Byte `k` of a word that numbers its bits from the first byte's bit 0 upward, as spec/opcode_table.json does. -/
def tableByte (w k : Nat) : Byte := BitVec.ofNat 8 (w / 2 ^ (8 * k))

/-- The three bytes, lowest address first, of an instruction whose low `nbits` bits are given; the others are 0. -/
def tableBytes (nbits w : Nat) : List Byte :=
  let v := w % 2 ^ nbits
  [tableByte v 0, tableByte v 1, tableByte v 2]

/-- What the decoder reads from a word numbered as spec/opcode_table.json numbers it. -/
def decodeTableWord (nbits w : Nat) : Option Instr :=
  match decode (tableBytes nbits w) with
  | .ok (i, _) => some i
  | .error _ => none

/-! ## The encoder -/

/-- The bytes of an instruction, lowest address first (R91–R92, R95–R96). -/
def encode : Instr → List Byte
  | .ldaIzx zp => [0xA1#8, zp]
  | .ldaZp zp => [0xA5#8, zp]
  | .ldaImm imm => [0xA9#8, imm]
  | .ldaAbs addr => [0xAD#8, loByte addr, hiByte addr]
  | .ldaIzy zp => [0xB1#8, zp]
  | .ldaZpx zp => [0xB5#8, zp]
  | .ldaAby addr => [0xB9#8, loByte addr, hiByte addr]
  | .ldaAbx addr => [0xBD#8, loByte addr, hiByte addr]
  | .ldxImm imm => [0xA2#8, imm]
  | .ldxZp zp => [0xA6#8, zp]
  | .ldxAbs addr => [0xAE#8, loByte addr, hiByte addr]
  | .ldxZpy zp => [0xB6#8, zp]
  | .ldxAby addr => [0xBE#8, loByte addr, hiByte addr]
  | .ldyImm imm => [0xA0#8, imm]
  | .ldyZp zp => [0xA4#8, zp]
  | .ldyAbs addr => [0xAC#8, loByte addr, hiByte addr]
  | .ldyZpx zp => [0xB4#8, zp]
  | .ldyAbx addr => [0xBC#8, loByte addr, hiByte addr]
  | .staIzx zp => [0x81#8, zp]
  | .staZp zp => [0x85#8, zp]
  | .staAbs addr => [0x8D#8, loByte addr, hiByte addr]
  | .staIzy zp => [0x91#8, zp]
  | .staZpx zp => [0x95#8, zp]
  | .staAby addr => [0x99#8, loByte addr, hiByte addr]
  | .staAbx addr => [0x9D#8, loByte addr, hiByte addr]
  | .stxZp zp => [0x86#8, zp]
  | .stxAbs addr => [0x8E#8, loByte addr, hiByte addr]
  | .stxZpy zp => [0x96#8, zp]
  | .styZp zp => [0x84#8, zp]
  | .styAbs addr => [0x8C#8, loByte addr, hiByte addr]
  | .styZpx zp => [0x94#8, zp]
  | .adcIzx zp => [0x61#8, zp]
  | .adcZp zp => [0x65#8, zp]
  | .adcImm imm => [0x69#8, imm]
  | .adcAbs addr => [0x6D#8, loByte addr, hiByte addr]
  | .adcIzy zp => [0x71#8, zp]
  | .adcZpx zp => [0x75#8, zp]
  | .adcAby addr => [0x79#8, loByte addr, hiByte addr]
  | .adcAbx addr => [0x7D#8, loByte addr, hiByte addr]
  | .sbcIzx zp => [0xE1#8, zp]
  | .sbcZp zp => [0xE5#8, zp]
  | .sbcImm imm => [0xE9#8, imm]
  | .sbcAbs addr => [0xED#8, loByte addr, hiByte addr]
  | .sbcIzy zp => [0xF1#8, zp]
  | .sbcZpx zp => [0xF5#8, zp]
  | .sbcAby addr => [0xF9#8, loByte addr, hiByte addr]
  | .sbcAbx addr => [0xFD#8, loByte addr, hiByte addr]
  | .andIzx zp => [0x21#8, zp]
  | .andZp zp => [0x25#8, zp]
  | .andImm imm => [0x29#8, imm]
  | .andAbs addr => [0x2D#8, loByte addr, hiByte addr]
  | .andIzy zp => [0x31#8, zp]
  | .andZpx zp => [0x35#8, zp]
  | .andAby addr => [0x39#8, loByte addr, hiByte addr]
  | .andAbx addr => [0x3D#8, loByte addr, hiByte addr]
  | .oraIzx zp => [0x01#8, zp]
  | .oraZp zp => [0x05#8, zp]
  | .oraImm imm => [0x09#8, imm]
  | .oraAbs addr => [0x0D#8, loByte addr, hiByte addr]
  | .oraIzy zp => [0x11#8, zp]
  | .oraZpx zp => [0x15#8, zp]
  | .oraAby addr => [0x19#8, loByte addr, hiByte addr]
  | .oraAbx addr => [0x1D#8, loByte addr, hiByte addr]
  | .eorIzx zp => [0x41#8, zp]
  | .eorZp zp => [0x45#8, zp]
  | .eorImm imm => [0x49#8, imm]
  | .eorAbs addr => [0x4D#8, loByte addr, hiByte addr]
  | .eorIzy zp => [0x51#8, zp]
  | .eorZpx zp => [0x55#8, zp]
  | .eorAby addr => [0x59#8, loByte addr, hiByte addr]
  | .eorAbx addr => [0x5D#8, loByte addr, hiByte addr]
  | .bitZp zp => [0x24#8, zp]
  | .bitAbs addr => [0x2C#8, loByte addr, hiByte addr]
  | .aslZp zp => [0x06#8, zp]
  | .aslAcc => [0x0A#8]
  | .aslAbs addr => [0x0E#8, loByte addr, hiByte addr]
  | .aslZpx zp => [0x16#8, zp]
  | .aslAbx addr => [0x1E#8, loByte addr, hiByte addr]
  | .lsrZp zp => [0x46#8, zp]
  | .lsrAcc => [0x4A#8]
  | .lsrAbs addr => [0x4E#8, loByte addr, hiByte addr]
  | .lsrZpx zp => [0x56#8, zp]
  | .lsrAbx addr => [0x5E#8, loByte addr, hiByte addr]
  | .rolZp zp => [0x26#8, zp]
  | .rolAcc => [0x2A#8]
  | .rolAbs addr => [0x2E#8, loByte addr, hiByte addr]
  | .rolZpx zp => [0x36#8, zp]
  | .rolAbx addr => [0x3E#8, loByte addr, hiByte addr]
  | .rorZp zp => [0x66#8, zp]
  | .rorAcc => [0x6A#8]
  | .rorAbs addr => [0x6E#8, loByte addr, hiByte addr]
  | .rorZpx zp => [0x76#8, zp]
  | .rorAbx addr => [0x7E#8, loByte addr, hiByte addr]
  | .cmpIzx zp => [0xC1#8, zp]
  | .cmpZp zp => [0xC5#8, zp]
  | .cmpImm imm => [0xC9#8, imm]
  | .cmpAbs addr => [0xCD#8, loByte addr, hiByte addr]
  | .cmpIzy zp => [0xD1#8, zp]
  | .cmpZpx zp => [0xD5#8, zp]
  | .cmpAby addr => [0xD9#8, loByte addr, hiByte addr]
  | .cmpAbx addr => [0xDD#8, loByte addr, hiByte addr]
  | .cpxImm imm => [0xE0#8, imm]
  | .cpxZp zp => [0xE4#8, zp]
  | .cpxAbs addr => [0xEC#8, loByte addr, hiByte addr]
  | .cpyImm imm => [0xC0#8, imm]
  | .cpyZp zp => [0xC4#8, zp]
  | .cpyAbs addr => [0xCC#8, loByte addr, hiByte addr]
  | .incZp zp => [0xE6#8, zp]
  | .incAbs addr => [0xEE#8, loByte addr, hiByte addr]
  | .incZpx zp => [0xF6#8, zp]
  | .incAbx addr => [0xFE#8, loByte addr, hiByte addr]
  | .decZp zp => [0xC6#8, zp]
  | .decAbs addr => [0xCE#8, loByte addr, hiByte addr]
  | .decZpx zp => [0xD6#8, zp]
  | .decAbx addr => [0xDE#8, loByte addr, hiByte addr]
  | .inx => [0xE8#8]
  | .iny => [0xC8#8]
  | .dex => [0xCA#8]
  | .dey => [0x88#8]
  | .bcc rel => [0x90#8, rel]
  | .bcs rel => [0xB0#8, rel]
  | .bne rel => [0xD0#8, rel]
  | .beq rel => [0xF0#8, rel]
  | .bpl rel => [0x10#8, rel]
  | .bmi rel => [0x30#8, rel]
  | .bvc rel => [0x50#8, rel]
  | .bvs rel => [0x70#8, rel]
  | .jmpAbs addr => [0x4C#8, loByte addr, hiByte addr]
  | .jmpInd ptr => [0x6C#8, loByte ptr, hiByte ptr]
  | .jsrAbs addr => [0x20#8, loByte addr, hiByte addr]
  | .rts => [0x60#8]
  | .rti => [0x40#8]
  | .pha => [0x48#8]
  | .php => [0x08#8]
  | .pla => [0x68#8]
  | .plp => [0x28#8]
  | .sec => [0x38#8]
  | .clc => [0x18#8]
  | .sed => [0xF8#8]
  | .cld => [0xD8#8]
  | .sei => [0x78#8]
  | .cli => [0x58#8]
  | .clv => [0xB8#8]
  | .tax => [0xAA#8]
  | .txa => [0x8A#8]
  | .tay => [0xA8#8]
  | .tya => [0x98#8]
  | .tsx => [0xBA#8]
  | .txs => [0x9A#8]
  | .nop => [0xEA#8]
  | .brk => [0x00#8]

/-- The opcode byte (R90). -/
def Instr.opcode (i : Instr) : Byte := (encode i).headD 0x00#8

/-- The table's base cycle cost (R95). -/
def Instr.baseCycles (i : Instr) : Nat :=
  match opcodeEntry i.opcode with
  | some e => e.cycles
  | none => 0

/-- The table's mark for extra cycles (R95). -/
def Instr.extraCycles (i : Instr) : ExtraCycles :=
  match opcodeEntry i.opcode with
  | some e => e.extra
  | none => .none

/-! ## What an instruction is made of (R96) -/

/-- The mnemonic of a row. -/
def Instr.mnemonic : Instr → Mnemonic
  | .ldaIzx _ | .ldaZp _ | .ldaImm _ | .ldaAbs _ | .ldaIzy _ | .ldaZpx _ | .ldaAby _ | .ldaAbx _ => .lda
  | .ldxImm _ | .ldxZp _ | .ldxAbs _ | .ldxZpy _ | .ldxAby _ => .ldx
  | .ldyImm _ | .ldyZp _ | .ldyAbs _ | .ldyZpx _ | .ldyAbx _ => .ldy
  | .staIzx _ | .staZp _ | .staAbs _ | .staIzy _ | .staZpx _ | .staAby _ | .staAbx _ => .sta
  | .stxZp _ | .stxAbs _ | .stxZpy _ => .stx
  | .styZp _ | .styAbs _ | .styZpx _ => .sty
  | .adcIzx _ | .adcZp _ | .adcImm _ | .adcAbs _ | .adcIzy _ | .adcZpx _ | .adcAby _ | .adcAbx _ => .adc
  | .sbcIzx _ | .sbcZp _ | .sbcImm _ | .sbcAbs _ | .sbcIzy _ | .sbcZpx _ | .sbcAby _ | .sbcAbx _ => .sbc
  | .andIzx _ | .andZp _ | .andImm _ | .andAbs _ | .andIzy _ | .andZpx _ | .andAby _ | .andAbx _ => .and
  | .oraIzx _ | .oraZp _ | .oraImm _ | .oraAbs _ | .oraIzy _ | .oraZpx _ | .oraAby _ | .oraAbx _ => .ora
  | .eorIzx _ | .eorZp _ | .eorImm _ | .eorAbs _ | .eorIzy _ | .eorZpx _ | .eorAby _ | .eorAbx _ => .eor
  | .bitZp _ | .bitAbs _ => .bit
  | .aslZp _ | .aslAcc | .aslAbs _ | .aslZpx _ | .aslAbx _ => .asl
  | .lsrZp _ | .lsrAcc | .lsrAbs _ | .lsrZpx _ | .lsrAbx _ => .lsr
  | .rolZp _ | .rolAcc | .rolAbs _ | .rolZpx _ | .rolAbx _ => .rol
  | .rorZp _ | .rorAcc | .rorAbs _ | .rorZpx _ | .rorAbx _ => .ror
  | .cmpIzx _ | .cmpZp _ | .cmpImm _ | .cmpAbs _ | .cmpIzy _ | .cmpZpx _ | .cmpAby _ | .cmpAbx _ => .cmp
  | .cpxImm _ | .cpxZp _ | .cpxAbs _ => .cpx
  | .cpyImm _ | .cpyZp _ | .cpyAbs _ => .cpy
  | .incZp _ | .incAbs _ | .incZpx _ | .incAbx _ => .inc
  | .decZp _ | .decAbs _ | .decZpx _ | .decAbx _ => .dec
  | .inx => .inx
  | .iny => .iny
  | .dex => .dex
  | .dey => .dey
  | .bcc _ => .bcc
  | .bcs _ => .bcs
  | .bne _ => .bne
  | .beq _ => .beq
  | .bpl _ => .bpl
  | .bmi _ => .bmi
  | .bvc _ => .bvc
  | .bvs _ => .bvs
  | .jmpAbs _ | .jmpInd _ => .jmp
  | .jsrAbs _ => .jsr
  | .rts => .rts
  | .rti => .rti
  | .pha => .pha
  | .php => .php
  | .pla => .pla
  | .plp => .plp
  | .sec => .sec
  | .clc => .clc
  | .sed => .sed
  | .cld => .cld
  | .sei => .sei
  | .cli => .cli
  | .clv => .clv
  | .tax => .tax
  | .txa => .txa
  | .tay => .tay
  | .tya => .tya
  | .tsx => .tsx
  | .txs => .txs
  | .nop => .nop
  | .brk => .brk

/-- The operand of a row, with its addressing mode. -/
def Instr.operand : Instr → Operand
  | .ldaIzx zp => .memory (.indexedIndirect zp)
  | .ldaZp zp => .memory (.zeroPage zp)
  | .ldaImm imm => .memory (.immediate imm)
  | .ldaAbs addr => .memory (.absolute addr)
  | .ldaIzy zp => .memory (.indirectIndexed zp)
  | .ldaZpx zp => .memory (.zeroPageX zp)
  | .ldaAby addr => .memory (.absoluteY addr)
  | .ldaAbx addr => .memory (.absoluteX addr)
  | .ldxImm imm => .memory (.immediate imm)
  | .ldxZp zp => .memory (.zeroPage zp)
  | .ldxAbs addr => .memory (.absolute addr)
  | .ldxZpy zp => .memory (.zeroPageY zp)
  | .ldxAby addr => .memory (.absoluteY addr)
  | .ldyImm imm => .memory (.immediate imm)
  | .ldyZp zp => .memory (.zeroPage zp)
  | .ldyAbs addr => .memory (.absolute addr)
  | .ldyZpx zp => .memory (.zeroPageX zp)
  | .ldyAbx addr => .memory (.absoluteX addr)
  | .staIzx zp => .memory (.indexedIndirect zp)
  | .staZp zp => .memory (.zeroPage zp)
  | .staAbs addr => .memory (.absolute addr)
  | .staIzy zp => .memory (.indirectIndexed zp)
  | .staZpx zp => .memory (.zeroPageX zp)
  | .staAby addr => .memory (.absoluteY addr)
  | .staAbx addr => .memory (.absoluteX addr)
  | .stxZp zp => .memory (.zeroPage zp)
  | .stxAbs addr => .memory (.absolute addr)
  | .stxZpy zp => .memory (.zeroPageY zp)
  | .styZp zp => .memory (.zeroPage zp)
  | .styAbs addr => .memory (.absolute addr)
  | .styZpx zp => .memory (.zeroPageX zp)
  | .adcIzx zp => .memory (.indexedIndirect zp)
  | .adcZp zp => .memory (.zeroPage zp)
  | .adcImm imm => .memory (.immediate imm)
  | .adcAbs addr => .memory (.absolute addr)
  | .adcIzy zp => .memory (.indirectIndexed zp)
  | .adcZpx zp => .memory (.zeroPageX zp)
  | .adcAby addr => .memory (.absoluteY addr)
  | .adcAbx addr => .memory (.absoluteX addr)
  | .sbcIzx zp => .memory (.indexedIndirect zp)
  | .sbcZp zp => .memory (.zeroPage zp)
  | .sbcImm imm => .memory (.immediate imm)
  | .sbcAbs addr => .memory (.absolute addr)
  | .sbcIzy zp => .memory (.indirectIndexed zp)
  | .sbcZpx zp => .memory (.zeroPageX zp)
  | .sbcAby addr => .memory (.absoluteY addr)
  | .sbcAbx addr => .memory (.absoluteX addr)
  | .andIzx zp => .memory (.indexedIndirect zp)
  | .andZp zp => .memory (.zeroPage zp)
  | .andImm imm => .memory (.immediate imm)
  | .andAbs addr => .memory (.absolute addr)
  | .andIzy zp => .memory (.indirectIndexed zp)
  | .andZpx zp => .memory (.zeroPageX zp)
  | .andAby addr => .memory (.absoluteY addr)
  | .andAbx addr => .memory (.absoluteX addr)
  | .oraIzx zp => .memory (.indexedIndirect zp)
  | .oraZp zp => .memory (.zeroPage zp)
  | .oraImm imm => .memory (.immediate imm)
  | .oraAbs addr => .memory (.absolute addr)
  | .oraIzy zp => .memory (.indirectIndexed zp)
  | .oraZpx zp => .memory (.zeroPageX zp)
  | .oraAby addr => .memory (.absoluteY addr)
  | .oraAbx addr => .memory (.absoluteX addr)
  | .eorIzx zp => .memory (.indexedIndirect zp)
  | .eorZp zp => .memory (.zeroPage zp)
  | .eorImm imm => .memory (.immediate imm)
  | .eorAbs addr => .memory (.absolute addr)
  | .eorIzy zp => .memory (.indirectIndexed zp)
  | .eorZpx zp => .memory (.zeroPageX zp)
  | .eorAby addr => .memory (.absoluteY addr)
  | .eorAbx addr => .memory (.absoluteX addr)
  | .bitZp zp => .memory (.zeroPage zp)
  | .bitAbs addr => .memory (.absolute addr)
  | .aslZp zp => .memory (.zeroPage zp)
  | .aslAcc => .accumulator
  | .aslAbs addr => .memory (.absolute addr)
  | .aslZpx zp => .memory (.zeroPageX zp)
  | .aslAbx addr => .memory (.absoluteX addr)
  | .lsrZp zp => .memory (.zeroPage zp)
  | .lsrAcc => .accumulator
  | .lsrAbs addr => .memory (.absolute addr)
  | .lsrZpx zp => .memory (.zeroPageX zp)
  | .lsrAbx addr => .memory (.absoluteX addr)
  | .rolZp zp => .memory (.zeroPage zp)
  | .rolAcc => .accumulator
  | .rolAbs addr => .memory (.absolute addr)
  | .rolZpx zp => .memory (.zeroPageX zp)
  | .rolAbx addr => .memory (.absoluteX addr)
  | .rorZp zp => .memory (.zeroPage zp)
  | .rorAcc => .accumulator
  | .rorAbs addr => .memory (.absolute addr)
  | .rorZpx zp => .memory (.zeroPageX zp)
  | .rorAbx addr => .memory (.absoluteX addr)
  | .cmpIzx zp => .memory (.indexedIndirect zp)
  | .cmpZp zp => .memory (.zeroPage zp)
  | .cmpImm imm => .memory (.immediate imm)
  | .cmpAbs addr => .memory (.absolute addr)
  | .cmpIzy zp => .memory (.indirectIndexed zp)
  | .cmpZpx zp => .memory (.zeroPageX zp)
  | .cmpAby addr => .memory (.absoluteY addr)
  | .cmpAbx addr => .memory (.absoluteX addr)
  | .cpxImm imm => .memory (.immediate imm)
  | .cpxZp zp => .memory (.zeroPage zp)
  | .cpxAbs addr => .memory (.absolute addr)
  | .cpyImm imm => .memory (.immediate imm)
  | .cpyZp zp => .memory (.zeroPage zp)
  | .cpyAbs addr => .memory (.absolute addr)
  | .incZp zp => .memory (.zeroPage zp)
  | .incAbs addr => .memory (.absolute addr)
  | .incZpx zp => .memory (.zeroPageX zp)
  | .incAbx addr => .memory (.absoluteX addr)
  | .decZp zp => .memory (.zeroPage zp)
  | .decAbs addr => .memory (.absolute addr)
  | .decZpx zp => .memory (.zeroPageX zp)
  | .decAbx addr => .memory (.absoluteX addr)
  | .inx => .implied
  | .iny => .implied
  | .dex => .implied
  | .dey => .implied
  | .bcc rel => .relative rel
  | .bcs rel => .relative rel
  | .bne rel => .relative rel
  | .beq rel => .relative rel
  | .bpl rel => .relative rel
  | .bmi rel => .relative rel
  | .bvc rel => .relative rel
  | .bvs rel => .relative rel
  | .jmpAbs addr => .memory (.absolute addr)
  | .jmpInd ptr => .memory (.indirect ptr)
  | .jsrAbs addr => .memory (.absolute addr)
  | .rts => .implied
  | .rti => .implied
  | .pha => .implied
  | .php => .implied
  | .pla => .implied
  | .plp => .implied
  | .sec => .implied
  | .clc => .implied
  | .sed => .implied
  | .cld => .implied
  | .sei => .implied
  | .cli => .implied
  | .clv => .implied
  | .tax => .implied
  | .txa => .implied
  | .tay => .implied
  | .tya => .implied
  | .tsx => .implied
  | .txs => .implied
  | .nop => .implied
  | .brk => .implied

/-- The mode of an operand that gives an address. -/
def MemOperand.mode : MemOperand → Mode
  | .immediate _ => .immediate
  | .zeroPage _ => .zeroPage
  | .zeroPageX _ => .zeroPageX
  | .zeroPageY _ => .zeroPageY
  | .absolute _ => .absolute
  | .absoluteX _ => .absoluteX
  | .absoluteY _ => .absoluteY
  | .indirect _ => .indirect
  | .indexedIndirect _ => .indexedIndirect
  | .indirectIndexed _ => .indirectIndexed

/-- The mode of an operand (R140). -/
def Operand.mode : Operand → Mode
  | .accumulator => .accumulator
  | .implied => .implied
  | .memory m => m.mode
  | .relative _ => .relative

/-- The instruction length a mode gives (R91, 41_addressing.md R142, R156). -/
def Mode.length : Mode → Nat
  | .accumulator | .implied => 1
  | .immediate | .zeroPage | .zeroPageX | .zeroPageY | .indexedIndirect | .indirectIndexed | .relative => 2
  | .absolute | .absoluteX | .absoluteY | .indirect => 3

/-- The length of an instruction (R93). -/
def Instr.length (i : Instr) : Nat := i.operand.mode.length

/-- The operand bytes, in the order they follow the opcode (R91–R92). -/
def Operand.bytes : Operand → List Byte
  | .accumulator | .implied => []
  | .relative rel => [rel]
  | .memory (.immediate imm) => [imm]
  | .memory (.zeroPage zp) | .memory (.zeroPageX zp) | .memory (.zeroPageY zp)
  | .memory (.indexedIndirect zp) | .memory (.indirectIndexed zp) => [zp]
  | .memory (.absolute addr) | .memory (.absoluteX addr) | .memory (.absoluteY addr)
  | .memory (.indirect addr) => [loByte addr, hiByte addr]

/-! ## Branch targets and the assembler's text (R101–R102) -/

/-- Where a branch at `pc0` with offset byte `rel` goes when taken (41_addressing.md R153). -/
def branchTarget (pc0 : Word) (rel : Byte) : Word := pc0 + 2#16 + sext16 rel

/-- The offset byte the assembler writes for a target, or nothing where the target is out of range (R102). -/
def relativeOffset (pc0 target : Word) : Option Byte :=
  let d := target - (pc0 + 2#16)
  if -128 ≤ d.toInt ∧ d.toInt ≤ 127 then some (loByte d) else none

/-- A hexadecimal digit. -/
def hexDigit (n : Nat) : Char := "0123456789ABCDEF".toList.getD n '0'

/-- `$nn` of R101. -/
def hexByte (b : Byte) : String := "$" ++ String.ofList [hexDigit (b.toNat / 16), hexDigit (b.toNat % 16)]

/-- `$hhll` of R101. -/
def hexWord (w : Word) : String :=
  "$" ++ String.ofList
    [hexDigit (w.toNat / 4096), hexDigit (w.toNat / 256 % 16), hexDigit (w.toNat / 16 % 16), hexDigit (w.toNat % 16)]

/-- The mnemonic's name (R96). -/
def Mnemonic.text : Mnemonic → String
  | .lda => "LDA"
  | .ldx => "LDX"
  | .ldy => "LDY"
  | .sta => "STA"
  | .stx => "STX"
  | .sty => "STY"
  | .adc => "ADC"
  | .sbc => "SBC"
  | .and => "AND"
  | .ora => "ORA"
  | .eor => "EOR"
  | .bit => "BIT"
  | .asl => "ASL"
  | .lsr => "LSR"
  | .rol => "ROL"
  | .ror => "ROR"
  | .cmp => "CMP"
  | .cpx => "CPX"
  | .cpy => "CPY"
  | .inc => "INC"
  | .dec => "DEC"
  | .inx => "INX"
  | .iny => "INY"
  | .dex => "DEX"
  | .dey => "DEY"
  | .bcc => "BCC"
  | .bcs => "BCS"
  | .bne => "BNE"
  | .beq => "BEQ"
  | .bpl => "BPL"
  | .bmi => "BMI"
  | .bvc => "BVC"
  | .bvs => "BVS"
  | .jmp => "JMP"
  | .jsr => "JSR"
  | .rts => "RTS"
  | .rti => "RTI"
  | .pha => "PHA"
  | .php => "PHP"
  | .pla => "PLA"
  | .plp => "PLP"
  | .sec => "SEC"
  | .clc => "CLC"
  | .sed => "SED"
  | .cld => "CLD"
  | .sei => "SEI"
  | .cli => "CLI"
  | .clv => "CLV"
  | .tax => "TAX"
  | .txa => "TXA"
  | .tay => "TAY"
  | .tya => "TYA"
  | .tsx => "TSX"
  | .txs => "TXS"
  | .nop => "NOP"
  | .brk => "BRK"

/-- The operand's text, with the space before it; a relative operand is written as the target of an instruction at `pc0`
(R101–R102). -/
def Operand.text (pc0 : Word) : Operand → String
  | .implied => ""
  | .accumulator => " A"
  | .relative rel => " " ++ hexWord (branchTarget pc0 rel)
  | .memory (.immediate imm) => " #" ++ hexByte imm
  | .memory (.zeroPage zp) => " " ++ hexByte zp
  | .memory (.zeroPageX zp) => " " ++ hexByte zp ++ ",X"
  | .memory (.zeroPageY zp) => " " ++ hexByte zp ++ ",Y"
  | .memory (.absolute addr) => " " ++ hexWord addr
  | .memory (.absoluteX addr) => " " ++ hexWord addr ++ ",X"
  | .memory (.absoluteY addr) => " " ++ hexWord addr ++ ",Y"
  | .memory (.indirect ptr) => " (" ++ hexWord ptr ++ ")"
  | .memory (.indexedIndirect zp) => " (" ++ hexByte zp ++ ",X)"
  | .memory (.indirectIndexed zp) => " (" ++ hexByte zp ++ "),Y"

/-- The assembler's line for an instruction at `pc0` (R101). -/
def Instr.text (pc0 : Word) (i : Instr) : String := i.mnemonic.text ++ i.operand.text pc0

end Sys2Proof
end

