-- ==== Sys2Proof/Config.lean ====
section
/-! DEFINITION. What an implementation fixes: the OPEN parameters of 00_scope.md R5 and the fixed addresses of 20_memory.md R72. The spec leaves no result of an instruction undefined, so there is no free value here. -/

namespace Sys2Proof

/-- The OPEN parameter that `step` consults (R5, 92_eei_decisions.md D11). Its default is the spec's, `false`. -/
structure Config where
  /-- `STRICT_TIMING`: page crossings cost an extra cycle (40_dispatch.md R127, 46_branch.md R250). -/
  strictTiming : Bool := false
deriving DecidableEq, Repr

/-- The OPEN parameters that `construct` consults (R5, R47): `INIT_A`, `INIT_X`, `INIT_Y`, `INIT_S`, `INIT_P`,
`INIT_PC` and `INIT_MEM`. The defaults are the model's DESIGN CHOICE (logs 1, 2, 3, 4): unsafe, the spec gives no value. -/
structure InitParams where
  a   : Byte := 0x00#8
  x   : Byte := 0x00#8
  y   : Byte := 0x00#8
  s   : Byte := 0x00#8
  /-- Bit 5 must be 1 and bit 4 must be 0 (R5). -/
  p   : Byte := 0x20#8
  pc  : Word := 0x0000#16
  /-- `INIT_MEM`, as a memory in canonical form: every content of the 65536 bytes has one such form. -/
  mem : List Host.Cell := []
deriving DecidableEq, Repr

/-- What a byte of memory that nothing lists reads as. DESIGN CHOICE (log 4), unsafe: `INIT_MEM` is OPEN in the spec. -/
def Config.unlistedByte : Byte := 0x00#8

/-- The reset vector's low byte (R72); the high byte is at the next address. -/
def Config.resetVector : Word := 0xFFFC#16

/-- The BRK/IRQ vector's low byte (R72); the high byte is at the next address. -/
def Config.brkVector : Word := 0xFFFE#16

/-- The first address of the stack page (R68, R72). -/
def Config.stackPage : Word := 0x0100#16

end Sys2Proof
end

