-- ==== Sys2Proof/Machine/State.lean ====
section
/-! DEFINITION. The state tuple (10_state.md R20), the fault records (60_exceptions.md R340–R341), the reasons a step stops, and the state after reset (R47, 70_reset_and_hazards.md R370). -/

namespace Sys2Proof.Machine

open Sys2Proof

/-- The 8-bit registers that instructions name: A, X, Y and S (10_state.md R21–R25). -/
inductive Reg8 where
  | a | x | y | s
deriving DecidableEq, Repr

/-- The flags of P (10_state.md R28). Bit 5 is hardwired and has no name. -/
inductive Flag where
  | n | v | b | d | i | z | c
deriving DecidableEq, Repr

/-- `run_state` (10_state.md R43). -/
inductive RunState where
  | uninitialized | ready | halted
deriving DecidableEq, Repr

/-- The four fault kinds (60_exceptions.md R340). The last two are named by the spec and raised by nothing (R343–R344). -/
inductive FaultKind where
  | notInitialized | unimplementedOpcode | invalidAddressingModeForInstruction | flagValueOutOfRange
deriving DecidableEq, Repr

/-- The fault record `(kind, opcode, pc)` (10_state.md R46). -/
structure FaultRecord where
  kind   : FaultKind
  opcode : Byte
  pc     : Word
deriving DecidableEq, Repr

/-- Memory (20_memory.md R60): the bytes that differ from the unlisted byte, addresses strictly rising (logs 4 and 12). -/
abbrev Memory := List Host.Cell

/-- `CPUState` (10_state.md R20) and, beside it, the instance's parameter `STRICT_TIMING` (R48). -/
structure State where
  /-- `A` (R21). -/
  a : Byte
  /-- `X` (R22). -/
  x : Byte
  /-- `Y` (R23). -/
  y : Byte
  /-- `S`, the stack pointer (R25). -/
  s : Byte
  /-- `PC` (R24). -/
  pc : Word
  /-- `P`, packed `N V 1 B D I Z C` (R26, R28). -/
  p : Byte
  /-- `memory` (R42). -/
  mem : Memory
  /-- `run_state` (R43). -/
  runState : RunState
  /-- `last_opcode` (R44). -/
  lastOpcode : Option Byte
  /-- `cycles_last` (R45, 60_exceptions.md R355). -/
  cyclesLast : Byte
  /-- `fault` (R46). -/
  fault : Option FaultRecord
  /-- The model's own field: the parameter of this instance (00_scope.md R5, log 5). Nothing writes it. -/
  cfg : Config
deriving DecidableEq, Repr

/-- Why `step` answers a fault and leaves the state as it is. -/
inductive Fault where
  /-- Raised by `step` before `initialize` (60_exceptions.md R345). Safe: the spec's `step` returns it and changes nothing. -/
  | notInitialized
  /-- Raised by `step` in `Halted`: the stored record again (R346). Safe: the spec's `step` returns it and changes nothing. -/
  | halted (record : Option FaultRecord)
deriving DecidableEq, Repr

/-- Why the model has no next state to give. -/
inductive Refusal where
  /-- An instruction without a meaning yet; no arm of `exec` answers it. Safe. -/
  | notModelled (mnemonic : String)
  /-- Raised by `construct`: the image would run past 0xFFFF, or the load address is none (70_reset_and_hazards.md R371). Safe. -/
  | imageOutOfRange
  /-- Raised by `initialize` in `Ready` or `Halted` (R373). Safe. -/
  | alreadyInitialized
  /-- Raised by `fixture` for a launch state that breaks the invariants of 10_state.md R49 (R375). Safe. -/
  | fixtureInvalid
deriving DecidableEq, Repr

/-- The machine right after reset: `construct` with no image, then `initialize` (R370, R47). PC is the word at the reset
vector, two unlisted bytes. A, X, Y, S, P and memory hold the OPEN parameters' values of logs 1, 2 and 4. -/
def State.reset : State where
  a := ({} : InitParams).a
  x := ({} : InitParams).x
  y := ({} : InitParams).y
  s := ({} : InitParams).s
  pc := Config.unlistedByte ++ Config.unlistedByte
  p := ({} : InitParams).p
  mem := []
  runState := .ready
  lastOpcode := none
  cyclesLast := 0x00#8
  fault := none
  cfg := {}

end Sys2Proof.Machine
end

