-- ==== Sys2Proof/Machine/Flags.lean ====
section
/-! DEFINITION. The flag engine (10_state.md R28–R40) and every flag computation: sums, differences, shifts. -/

namespace Sys2Proof.Machine

open Sys2Proof

/-- The place of a flag in P (R28). -/
def Flag.bit : Flag → Nat
  | .n => 7
  | .v => 6
  | .b => 4
  | .d => 3
  | .i => 2
  | .z => 1
  | .c => 0

/-- The byte with only that flag's bit set. -/
def Flag.mask (f : Flag) : Byte := 1#8 <<< f.bit

/-- A flag of a status byte (R38). -/
def getFlag (p : Byte) (f : Flag) : Bool := p.getLsbD f.bit

/-- A status byte with one flag written, the other bits as they were (R38). -/
def putFlag (p : Byte) (f : Flag) (v : Bool) : Byte := if v then p ||| f.mask else p &&& ~~~f.mask

/-- A flag of P. -/
def State.flag (s : State) (f : Flag) : Bool := getFlag s.p f

/-- Write one flag of P. -/
def State.setFlag (f : Flag) (v : Bool) (s : State) : State := { s with p := putFlag s.p f v }

/-- The general flag update `SetNZ` (R36). -/
def State.setNZ (r : Byte) (s : State) : State := (s.setFlag .z (r == 0x00#8)).setFlag .n (r.getLsbD 7)

/-- What a pulled byte becomes in P (R39): bit 5 forced to 1, bit 4 dropped. -/
def statusFromByte (b : Byte) : Byte := (b ||| 0x20#8) &&& ~~~0x10#8

/-- `WriteP` (R39). -/
def State.writeP (b : Byte) (s : State) : State := { s with p := statusFromByte b }

/-- `PushImage` (R40). -/
def pushImage (p : Byte) : Byte := p ||| 0x30#8

/-- A byte with its carry and overflow. -/
structure ArithResult where
  value    : Byte
  carry    : Bool
  overflow : Bool
deriving DecidableEq, Repr

/-- A byte with the bit shifted out. -/
structure ShiftResult where
  value : Byte
  carry : Bool
deriving DecidableEq, Repr

/-- ADC's sum (43_arith_logic.md R190): the exact sum, its ninth bit, and the exclusive-or test for V. -/
def addBytes (a m : Byte) (c : Bool) : ArithResult :=
  let sum := a.toNat + m.toNat + c.toNat
  let r := BitVec.ofNat 8 sum
  ⟨r, decide (256 ≤ sum), (~~~(a ^^^ m) &&& (a ^^^ r) &&& 0x80#8) != 0x00#8⟩

/-- SBC's difference (R191): the exact difference with C clear meaning borrow, no borrow, and the test for V. -/
def subBytes (a m : Byte) (c : Bool) : ArithResult :=
  let diff : Int := (a.toNat : Int) - m.toNat - (1 - c.toNat)
  let r := BitVec.ofInt 8 diff
  ⟨r, decide (0 ≤ diff), ((a ^^^ m) &&& (a ^^^ r) &&& 0x80#8) != 0x00#8⟩

/-- ASL (44_shift_rotate.md R210). -/
def shiftLeft (v : Byte) (_ : Bool) : ShiftResult := ⟨v <<< 1, v.getLsbD 7⟩

/-- LSR (R211). -/
def shiftRight (v : Byte) (_ : Bool) : ShiftResult := ⟨v >>> 1, v.getLsbD 0⟩

/-- ROL (R212): the prior carry into bit 0. -/
def rotateLeft (v : Byte) (c : Bool) : ShiftResult := ⟨v <<< 1 ||| (BitVec.ofBool c).setWidth 8, v.getLsbD 7⟩

/-- ROR (R213): the prior carry into bit 7. -/
def rotateRight (v : Byte) (c : Bool) : ShiftResult := ⟨v >>> 1 ||| (BitVec.ofBool c).setWidth 8 <<< 7, v.getLsbD 0⟩

end Sys2Proof.Machine
end

