-- ==== Sys2Proof/Machine/Ops.lean ====
section
/-! DEFINITION. The named operations over memory and registers (20_memory.md R60–R70), the stack engine (R66–R69), the trap entry and return (60_exceptions.md R349–R350) and the fault entry (R341). -/

namespace Sys2Proof.Machine

open Sys2Proof

/-! ## Memory -/

/-- The byte at an address (R62). -/
def Memory.read : Memory → Nat → Byte
  | [], _ => Config.unlistedByte
  | (b, v) :: rest, a => if a = b then v else Memory.read rest a

/-- A cell in front of a memory, left out when it holds the unlisted byte. -/
def consCell (a : Nat) (v : Byte) (m : Memory) : Memory := if v = Config.unlistedByte then m else (a, v) :: m

/-- The memory with one byte written (R62), in canonical form. -/
def Memory.write : Memory → Nat → Byte → Memory
  | [], a, v => consCell a v []
  | (b, w) :: rest, a, v =>
    if a < b then consCell a v ((b, w) :: rest)
    else if a = b then consCell a v rest
    else (b, w) :: Memory.write rest a v

/-- The bytes of a list written at rising addresses from `a`. -/
def Memory.load : Memory → Nat → List Byte → Memory
  | m, _, [] => m
  | m, a, v :: rest => Memory.load (m.write a v) (a + 1) rest

/-- The cells are in canonical form from `low` upward: addresses rising, inside the 65536 bytes, none holding the unlisted byte. -/
def Memory.wfFrom : Nat → Memory → Bool
  | _, [] => true
  | low, (a, v) :: rest => decide (low ≤ a) && decide (a < 65536) && v != Config.unlistedByte && Memory.wfFrom (a + 1) rest

/-- The canonical form (R42, R60; logs 4 and 12). -/
def Memory.wf (m : Memory) : Bool := Memory.wfFrom 0 m

/-- `MemRead(addr, 1)` (R62). -/
def State.readByte (s : State) (a : Word) : Byte := s.mem.read a.toNat

/-- `MemWrite(addr, 1, v)` (R62). -/
def State.writeByte (a : Word) (v : Byte) (s : State) : State := { s with mem := s.mem.write a.toNat v }

/-- `Read16(addr)`: the second byte at the 16-bit successor (R64). -/
def State.readWord (s : State) (a : Word) : Word := wordOf (s.readByte a) (s.readByte (a + 1#16))

/-- `Read16zp(p)`: the second byte at the zero-page successor (R65). -/
def State.readWordZp (s : State) (p : Byte) : Word := wordOf (s.readByte (zext16 p)) (s.readByte (zext16 (p + 1#8)))

/-! ## Registers -/

/-- Read a named register (10_state.md R21–R25). -/
def State.reg (s : State) : Reg8 → Byte
  | .a => s.a
  | .x => s.x
  | .y => s.y
  | .s => s.s

/-- Write a named register. -/
def State.setReg (r : Reg8) (v : Byte) (s : State) : State :=
  match r with
  | .a => { s with a := v }
  | .x => { s with x := v }
  | .y => { s with y := v }
  | .s => { s with s := v }

/-- `PC <- target` (R24). -/
def State.setPc (w : Word) (s : State) : State := { s with pc := w }

/-- `cycles_last <- n` (40_dispatch.md R126). -/
def State.setCycles (n : Nat) (s : State) : State := { s with cyclesLast := BitVec.ofNat 8 n }

/-- The end of an instruction that goes on to the next one: PC past its bytes (41_addressing.md R142) and its cost (R126). -/
def State.retire (length cycles : Nat) (s : State) : State := (s.setPc (s.pc + BitVec.ofNat 16 length)).setCycles cycles

/-! ## The stack engine -/

/-- The byte S addresses: `0x0100 | S` (R66–R68). -/
def stackAddress (sp : Byte) : Word := Config.stackPage ||| zext16 sp

/-- `Push(v)`: write, then decrement S (R66). -/
def State.push (v : Byte) (s : State) : State := (s.writeByte (stackAddress s.s) v).setReg .s (s.s - 1#8)

/-- `Pull()`: increment S, then read (R67). -/
def State.pull (s : State) : Byte × State := (s.readByte (stackAddress (s.s + 1#8)), s.setReg .s (s.s + 1#8))

/-- A word pushed high byte first (R69). -/
def State.pushWord (w : Word) (s : State) : State := (s.push (hiByte w)).push (loByte w)

/-- A word pulled low byte first (R69). -/
def State.pullWord (s : State) : Word × State := (wordOf s.pull.1 s.pull.2.pull.1, s.pull.2.pull.2)

/-! ## Traps and faults -/

/-- Trap entry, BRK (60_exceptions.md R349, 49_flags_transfer_misc.md R325): PC0 + 2 and the status image are pushed, then I
is set and PC is loaded through the BRK vector. -/
def takeTrap (base : Nat) (s : State) : State :=
  let saved := (((s.pushWord (s.pc + 2#16)).push (pushImage s.p)).setFlag .i true)
  (saved.setPc (saved.readWord Config.brkVector)).setCycles base

/-- Trap return, RTI (R350, 47_jump_subroutine.md R273): P, then PC from the stack, with no + 1. -/
def returnFromTrap (base : Nat) (s : State) : State :=
  let restored := s.pull.2.writeP s.pull.1
  (restored.pullWord.2.setPc restored.pullWord.1).setCycles base

/-- Fault entry (R341): the record is stored and the run halts; every other piece of state keeps its value. -/
def haltWith (kind : FaultKind) (opcode : Byte) (s : State) : State :=
  { s with fault := some ⟨kind, opcode, s.pc⟩, runState := .halted }

/-- The enumeration codes of the fault kinds (R340). -/
def FaultKind.code : FaultKind → Nat
  | .notInitialized => 1
  | .unimplementedOpcode => 2
  | .invalidAddressingModeForInstruction => 3
  | .flagValueOutOfRange => 4

end Sys2Proof.Machine
end

