-- ==== Sys2Proof/Machine/Operands.lean ====
section
/-! DEFINITION. The addressing-mode resolver (41_addressing.md R140–R156): effective addresses, operand bytes and page crossings, all from the state in which PC is the opcode's address. -/

namespace Sys2Proof.Machine

open Sys2Proof

/-- `EA` of the modes that give one (R145–R152, R156). -/
def effectiveAddress (m : MemOperand) (s : State) : Word :=
  match m with
  | .immediate _ => s.pc + 1#16
  | .zeroPage zp => zext16 zp
  | .zeroPageX zp => zext16 (zp + s.x)
  | .zeroPageY zp => zext16 (zp + s.y)
  | .absolute addr => addr
  | .absoluteX addr => addr + zext16 s.x
  | .absoluteY addr => addr + zext16 s.y
  | .indirect ptr => s.readWord ptr
  | .indexedIndirect zp => s.readWordZp (zp + s.x)
  | .indirectIndexed zp => s.readWordZp zp + zext16 s.y

/-- The operand byte `M` (R141, R145, R155). An immediate operand is the instruction's own byte (log 9). -/
def operandByte (m : MemOperand) (s : State) : Byte :=
  match m with
  | .immediate imm => imm
  | .zeroPage _ | .zeroPageX _ | .zeroPageY _ | .absolute _ | .absoluteX _ | .absoluteY _ | .indirect _
  | .indexedIndirect _ | .indirectIndexed _ => s.readByte (effectiveAddress m s)

/-- Whether indexing crosses a page: `hi(base16) != hi(EA)` (R154). Only the three modes that index a 16-bit base can. -/
def pageCrossed (m : MemOperand) (s : State) : Bool :=
  match m with
  | .absoluteX addr => hiByte addr != hiByte (effectiveAddress m s)
  | .absoluteY addr => hiByte addr != hiByte (effectiveAddress m s)
  | .indirectIndexed zp => hiByte (s.readWordZp zp) != hiByte (effectiveAddress m s)
  | .immediate _ | .zeroPage _ | .zeroPageX _ | .zeroPageY _ | .absolute _ | .indirect _ | .indexedIndirect _ => false

/-- The extra cycle of a reading instruction under STRICT_TIMING (40_dispatch.md R127). -/
def pageExtra (m : MemOperand) (s : State) : Nat := if s.cfg.strictTiming && pageCrossed m s then 1 else 0

end Sys2Proof.Machine
end

