-- ==== Sys2Proof/Machine/ArithLogic.lean ====
section
/-! DEFINITION. Arithmetic, logic and BIT (43_arith_logic.md R190–R198). The sums, carries and overflows are in Flags.lean. -/

namespace Sys2Proof.Machine

open Sys2Proof

/-- An 8-bit sum or difference into A, with C, V and the general flag update (R190, R191). -/
def arithmetic (r : ArithResult) (s : State) : State :=
  (((s.setFlag .c r.carry).setFlag .v r.overflow).setReg .a r.value).setNZ r.value

/-- ADC (R190). -/
def addWithCarry (m : MemOperand) (base : Nat) (s : State) : State :=
  (arithmetic (addBytes s.a (operandByte m s) (s.flag .c)) s).retire m.mode.length (base + pageExtra m s)

/-- SBC (R191). -/
def subtractWithBorrow (m : MemOperand) (base : Nat) (s : State) : State :=
  (arithmetic (subBytes s.a (operandByte m s) (s.flag .c)) s).retire m.mode.length (base + pageExtra m s)

/-- AND, ORA, EOR: bitwise on A and the operand, and the general flag update (R192–R194). -/
def logic (f : Byte → Byte → Byte) (m : MemOperand) (base : Nat) (s : State) : State :=
  ((s.setReg .a (f s.a (operandByte m s))).setNZ (f s.a (operandByte m s))).retire m.mode.length (base + pageExtra m s)

/-- BIT: Z from A & M, N and V from bits 7 and 6 of M; A is not written (R195). -/
def bitTest (m : MemOperand) (base : Nat) (s : State) : State :=
  (((s.setFlag .z (s.a &&& operandByte m s == 0x00#8)).setFlag .n ((operandByte m s).getLsbD 7)).setFlag .v
    ((operandByte m s).getLsbD 6)).retire m.mode.length base

/-- ADC Indexed_Indirect, opcode 0x61 (R190): add with carry. -/
def execAdcIzx (zp : Byte) (s : State) : Host.Outcome State Fault Refusal := .next (addWithCarry (.indexedIndirect zp) 6 s)

/-- ADC Zero_Page, opcode 0x65 (R190): add with carry. -/
def execAdcZp (zp : Byte) (s : State) : Host.Outcome State Fault Refusal := .next (addWithCarry (.zeroPage zp) 3 s)

/-- ADC Immediate, opcode 0x69 (R190): add with carry. -/
def execAdcImm (imm : Byte) (s : State) : Host.Outcome State Fault Refusal := .next (addWithCarry (.immediate imm) 2 s)

/-- ADC Absolute, opcode 0x6D (R190): add with carry. -/
def execAdcAbs (addr : Word) (s : State) : Host.Outcome State Fault Refusal := .next (addWithCarry (.absolute addr) 4 s)

/-- ADC Indirect_Indexed, opcode 0x71 (R190): add with carry. -/
def execAdcIzy (zp : Byte) (s : State) : Host.Outcome State Fault Refusal := .next (addWithCarry (.indirectIndexed zp) 5 s)

/-- ADC Zero_Page_Indexed_X, opcode 0x75 (R190): add with carry. -/
def execAdcZpx (zp : Byte) (s : State) : Host.Outcome State Fault Refusal := .next (addWithCarry (.zeroPageX zp) 4 s)

/-- ADC Absolute_Indexed_Y, opcode 0x79 (R190): add with carry. -/
def execAdcAby (addr : Word) (s : State) : Host.Outcome State Fault Refusal := .next (addWithCarry (.absoluteY addr) 4 s)

/-- ADC Absolute_Indexed_X, opcode 0x7D (R190): add with carry. -/
def execAdcAbx (addr : Word) (s : State) : Host.Outcome State Fault Refusal := .next (addWithCarry (.absoluteX addr) 4 s)

/-- SBC Indexed_Indirect, opcode 0xE1 (R191): subtract with borrow. -/
def execSbcIzx (zp : Byte) (s : State) : Host.Outcome State Fault Refusal := .next (subtractWithBorrow (.indexedIndirect zp) 6 s)

/-- SBC Zero_Page, opcode 0xE5 (R191): subtract with borrow. -/
def execSbcZp (zp : Byte) (s : State) : Host.Outcome State Fault Refusal := .next (subtractWithBorrow (.zeroPage zp) 3 s)

/-- SBC Immediate, opcode 0xE9 (R191): subtract with borrow. -/
def execSbcImm (imm : Byte) (s : State) : Host.Outcome State Fault Refusal := .next (subtractWithBorrow (.immediate imm) 2 s)

/-- SBC Absolute, opcode 0xED (R191): subtract with borrow. -/
def execSbcAbs (addr : Word) (s : State) : Host.Outcome State Fault Refusal := .next (subtractWithBorrow (.absolute addr) 4 s)

/-- SBC Indirect_Indexed, opcode 0xF1 (R191): subtract with borrow. -/
def execSbcIzy (zp : Byte) (s : State) : Host.Outcome State Fault Refusal := .next (subtractWithBorrow (.indirectIndexed zp) 5 s)

/-- SBC Zero_Page_Indexed_X, opcode 0xF5 (R191): subtract with borrow. -/
def execSbcZpx (zp : Byte) (s : State) : Host.Outcome State Fault Refusal := .next (subtractWithBorrow (.zeroPageX zp) 4 s)

/-- SBC Absolute_Indexed_Y, opcode 0xF9 (R191): subtract with borrow. -/
def execSbcAby (addr : Word) (s : State) : Host.Outcome State Fault Refusal := .next (subtractWithBorrow (.absoluteY addr) 4 s)

/-- SBC Absolute_Indexed_X, opcode 0xFD (R191): subtract with borrow. -/
def execSbcAbx (addr : Word) (s : State) : Host.Outcome State Fault Refusal := .next (subtractWithBorrow (.absoluteX addr) 4 s)

/-- AND Indexed_Indirect, opcode 0x21 (R192): bitwise and with A. -/
def execAndIzx (zp : Byte) (s : State) : Host.Outcome State Fault Refusal := .next (logic (· &&& ·) (.indexedIndirect zp) 6 s)

/-- AND Zero_Page, opcode 0x25 (R192): bitwise and with A. -/
def execAndZp (zp : Byte) (s : State) : Host.Outcome State Fault Refusal := .next (logic (· &&& ·) (.zeroPage zp) 3 s)

/-- AND Immediate, opcode 0x29 (R192): bitwise and with A. -/
def execAndImm (imm : Byte) (s : State) : Host.Outcome State Fault Refusal := .next (logic (· &&& ·) (.immediate imm) 2 s)

/-- AND Absolute, opcode 0x2D (R192): bitwise and with A. -/
def execAndAbs (addr : Word) (s : State) : Host.Outcome State Fault Refusal := .next (logic (· &&& ·) (.absolute addr) 4 s)

/-- AND Indirect_Indexed, opcode 0x31 (R192): bitwise and with A. -/
def execAndIzy (zp : Byte) (s : State) : Host.Outcome State Fault Refusal := .next (logic (· &&& ·) (.indirectIndexed zp) 5 s)

/-- AND Zero_Page_Indexed_X, opcode 0x35 (R192): bitwise and with A. -/
def execAndZpx (zp : Byte) (s : State) : Host.Outcome State Fault Refusal := .next (logic (· &&& ·) (.zeroPageX zp) 4 s)

/-- AND Absolute_Indexed_Y, opcode 0x39 (R192): bitwise and with A. -/
def execAndAby (addr : Word) (s : State) : Host.Outcome State Fault Refusal := .next (logic (· &&& ·) (.absoluteY addr) 4 s)

/-- AND Absolute_Indexed_X, opcode 0x3D (R192): bitwise and with A. -/
def execAndAbx (addr : Word) (s : State) : Host.Outcome State Fault Refusal := .next (logic (· &&& ·) (.absoluteX addr) 4 s)

/-- ORA Indexed_Indirect, opcode 0x01 (R193): bitwise or with A. -/
def execOraIzx (zp : Byte) (s : State) : Host.Outcome State Fault Refusal := .next (logic (· ||| ·) (.indexedIndirect zp) 6 s)

/-- ORA Zero_Page, opcode 0x05 (R193): bitwise or with A. -/
def execOraZp (zp : Byte) (s : State) : Host.Outcome State Fault Refusal := .next (logic (· ||| ·) (.zeroPage zp) 3 s)

/-- ORA Immediate, opcode 0x09 (R193): bitwise or with A. -/
def execOraImm (imm : Byte) (s : State) : Host.Outcome State Fault Refusal := .next (logic (· ||| ·) (.immediate imm) 2 s)

/-- ORA Absolute, opcode 0x0D (R193): bitwise or with A. -/
def execOraAbs (addr : Word) (s : State) : Host.Outcome State Fault Refusal := .next (logic (· ||| ·) (.absolute addr) 4 s)

/-- ORA Indirect_Indexed, opcode 0x11 (R193): bitwise or with A. -/
def execOraIzy (zp : Byte) (s : State) : Host.Outcome State Fault Refusal := .next (logic (· ||| ·) (.indirectIndexed zp) 5 s)

/-- ORA Zero_Page_Indexed_X, opcode 0x15 (R193): bitwise or with A. -/
def execOraZpx (zp : Byte) (s : State) : Host.Outcome State Fault Refusal := .next (logic (· ||| ·) (.zeroPageX zp) 4 s)

/-- ORA Absolute_Indexed_Y, opcode 0x19 (R193): bitwise or with A. -/
def execOraAby (addr : Word) (s : State) : Host.Outcome State Fault Refusal := .next (logic (· ||| ·) (.absoluteY addr) 4 s)

/-- ORA Absolute_Indexed_X, opcode 0x1D (R193): bitwise or with A. -/
def execOraAbx (addr : Word) (s : State) : Host.Outcome State Fault Refusal := .next (logic (· ||| ·) (.absoluteX addr) 4 s)

/-- EOR Indexed_Indirect, opcode 0x41 (R194): bitwise exclusive or with A. -/
def execEorIzx (zp : Byte) (s : State) : Host.Outcome State Fault Refusal := .next (logic (· ^^^ ·) (.indexedIndirect zp) 6 s)

/-- EOR Zero_Page, opcode 0x45 (R194): bitwise exclusive or with A. -/
def execEorZp (zp : Byte) (s : State) : Host.Outcome State Fault Refusal := .next (logic (· ^^^ ·) (.zeroPage zp) 3 s)

/-- EOR Immediate, opcode 0x49 (R194): bitwise exclusive or with A. -/
def execEorImm (imm : Byte) (s : State) : Host.Outcome State Fault Refusal := .next (logic (· ^^^ ·) (.immediate imm) 2 s)

/-- EOR Absolute, opcode 0x4D (R194): bitwise exclusive or with A. -/
def execEorAbs (addr : Word) (s : State) : Host.Outcome State Fault Refusal := .next (logic (· ^^^ ·) (.absolute addr) 4 s)

/-- EOR Indirect_Indexed, opcode 0x51 (R194): bitwise exclusive or with A. -/
def execEorIzy (zp : Byte) (s : State) : Host.Outcome State Fault Refusal := .next (logic (· ^^^ ·) (.indirectIndexed zp) 5 s)

/-- EOR Zero_Page_Indexed_X, opcode 0x55 (R194): bitwise exclusive or with A. -/
def execEorZpx (zp : Byte) (s : State) : Host.Outcome State Fault Refusal := .next (logic (· ^^^ ·) (.zeroPageX zp) 4 s)

/-- EOR Absolute_Indexed_Y, opcode 0x59 (R194): bitwise exclusive or with A. -/
def execEorAby (addr : Word) (s : State) : Host.Outcome State Fault Refusal := .next (logic (· ^^^ ·) (.absoluteY addr) 4 s)

/-- EOR Absolute_Indexed_X, opcode 0x5D (R194): bitwise exclusive or with A. -/
def execEorAbx (addr : Word) (s : State) : Host.Outcome State Fault Refusal := .next (logic (· ^^^ ·) (.absoluteX addr) 4 s)

/-- BIT Zero_Page, opcode 0x24 (R195): test bits of memory against A. -/
def execBitZp (zp : Byte) (s : State) : Host.Outcome State Fault Refusal := .next (bitTest (.zeroPage zp) 3 s)

/-- BIT Absolute, opcode 0x2C (R195): test bits of memory against A. -/
def execBitAbs (addr : Word) (s : State) : Host.Outcome State Fault Refusal := .next (bitTest (.absolute addr) 4 s)

end Sys2Proof.Machine
end

