-- ==== Sys2Proof/Machine/Branch.lean ====
section
/-! DEFINITION. The conditional branches (46_branch.md R250–R258). -/

namespace Sys2Proof.Machine

open Sys2Proof

/-- A branch taken when flag `f` holds `wanted`: PC moves past the two bytes, then by the signed offset; a taken branch
costs one more, and one more again under STRICT_TIMING when the target is on another page (R250). -/
def branch (f : Flag) (wanted : Bool) (rel : Byte) (base : Nat) (s : State) : State :=
  let next := s.pc + 2#16
  let target := branchTarget s.pc rel
  if s.flag f = wanted then
    (s.setPc target).setCycles (base + 1 + if s.cfg.strictTiming && hiByte target != hiByte next then 1 else 0)
  else
    (s.setPc next).setCycles base

/-- BCC Relative, opcode 0x90 (R251): branch if carry clear. -/
def execBcc (rel : Byte) (s : State) : Host.Outcome State Fault Refusal := .next (branch .c false rel 2 s)

/-- BCS Relative, opcode 0xB0 (R252): branch if carry set. -/
def execBcs (rel : Byte) (s : State) : Host.Outcome State Fault Refusal := .next (branch .c true rel 2 s)

/-- BNE Relative, opcode 0xD0 (R253): branch if Z = 0. -/
def execBne (rel : Byte) (s : State) : Host.Outcome State Fault Refusal := .next (branch .z false rel 2 s)

/-- BEQ Relative, opcode 0xF0 (R254): branch if Z = 1. -/
def execBeq (rel : Byte) (s : State) : Host.Outcome State Fault Refusal := .next (branch .z true rel 2 s)

/-- BPL Relative, opcode 0x10 (R255): branch if N = 0. -/
def execBpl (rel : Byte) (s : State) : Host.Outcome State Fault Refusal := .next (branch .n false rel 2 s)

/-- BMI Relative, opcode 0x30 (R256): branch if N = 1. -/
def execBmi (rel : Byte) (s : State) : Host.Outcome State Fault Refusal := .next (branch .n true rel 2 s)

/-- BVC Relative, opcode 0x50 (R257): branch if V = 0. -/
def execBvc (rel : Byte) (s : State) : Host.Outcome State Fault Refusal := .next (branch .v false rel 2 s)

/-- BVS Relative, opcode 0x70 (R258): branch if V = 1. -/
def execBvs (rel : Byte) (s : State) : Host.Outcome State Fault Refusal := .next (branch .v true rel 2 s)

end Sys2Proof.Machine
end

