-- ==== Sys2Proof/Machine/CompareIncDec.lean ====
section
/-! DEFINITION. Compares, increments and decrements (45_compare_incdec.md R230–R238). -/

namespace Sys2Proof.Machine

open Sys2Proof

/-- The common compare: C = no borrow, N and Z from the difference, which is not stored (R230–R232). -/
def compareRegister (r : Reg8) (m : MemOperand) (base : Nat) (s : State) : State :=
  ((s.setFlag .c (decide (operandByte m s ≤ s.reg r))).setNZ (s.reg r - operandByte m s)).retire m.mode.length
    (base + pageExtra m s)

/-- INC and DEC: one read, one write, the general flag update, no carry (R233–R234). -/
def modifyMemory (f : Byte → Byte) (m : MemOperand) (base : Nat) (s : State) : State :=
  ((s.writeByte (effectiveAddress m s) (f (operandByte m s))).setNZ (f (operandByte m s))).retire m.mode.length base

/-- INX, INY, DEX, DEY (R235–R238). -/
def modifyRegister (f : Byte → Byte) (r : Reg8) (base : Nat) (s : State) : State :=
  ((s.setReg r (f (s.reg r))).setNZ (f (s.reg r))).retire 1 base

/-- CMP Indexed_Indirect, opcode 0xC1 (R230): compare A. -/
def execCmpIzx (zp : Byte) (s : State) : Host.Outcome State Fault Refusal := .next (compareRegister .a (.indexedIndirect zp) 6 s)

/-- CMP Zero_Page, opcode 0xC5 (R230): compare A. -/
def execCmpZp (zp : Byte) (s : State) : Host.Outcome State Fault Refusal := .next (compareRegister .a (.zeroPage zp) 3 s)

/-- CMP Immediate, opcode 0xC9 (R230): compare A. -/
def execCmpImm (imm : Byte) (s : State) : Host.Outcome State Fault Refusal := .next (compareRegister .a (.immediate imm) 2 s)

/-- CMP Absolute, opcode 0xCD (R230): compare A. -/
def execCmpAbs (addr : Word) (s : State) : Host.Outcome State Fault Refusal := .next (compareRegister .a (.absolute addr) 4 s)

/-- CMP Indirect_Indexed, opcode 0xD1 (R230): compare A. -/
def execCmpIzy (zp : Byte) (s : State) : Host.Outcome State Fault Refusal := .next (compareRegister .a (.indirectIndexed zp) 5 s)

/-- CMP Zero_Page_Indexed_X, opcode 0xD5 (R230): compare A. -/
def execCmpZpx (zp : Byte) (s : State) : Host.Outcome State Fault Refusal := .next (compareRegister .a (.zeroPageX zp) 4 s)

/-- CMP Absolute_Indexed_Y, opcode 0xD9 (R230): compare A. -/
def execCmpAby (addr : Word) (s : State) : Host.Outcome State Fault Refusal := .next (compareRegister .a (.absoluteY addr) 4 s)

/-- CMP Absolute_Indexed_X, opcode 0xDD (R230): compare A. -/
def execCmpAbx (addr : Word) (s : State) : Host.Outcome State Fault Refusal := .next (compareRegister .a (.absoluteX addr) 4 s)

/-- CPX Immediate, opcode 0xE0 (R231): compare X. -/
def execCpxImm (imm : Byte) (s : State) : Host.Outcome State Fault Refusal := .next (compareRegister .x (.immediate imm) 2 s)

/-- CPX Zero_Page, opcode 0xE4 (R231): compare X. -/
def execCpxZp (zp : Byte) (s : State) : Host.Outcome State Fault Refusal := .next (compareRegister .x (.zeroPage zp) 3 s)

/-- CPX Absolute, opcode 0xEC (R231): compare X. -/
def execCpxAbs (addr : Word) (s : State) : Host.Outcome State Fault Refusal := .next (compareRegister .x (.absolute addr) 4 s)

/-- CPY Immediate, opcode 0xC0 (R232): compare Y. -/
def execCpyImm (imm : Byte) (s : State) : Host.Outcome State Fault Refusal := .next (compareRegister .y (.immediate imm) 2 s)

/-- CPY Zero_Page, opcode 0xC4 (R232): compare Y. -/
def execCpyZp (zp : Byte) (s : State) : Host.Outcome State Fault Refusal := .next (compareRegister .y (.zeroPage zp) 3 s)

/-- CPY Absolute, opcode 0xCC (R232): compare Y. -/
def execCpyAbs (addr : Word) (s : State) : Host.Outcome State Fault Refusal := .next (compareRegister .y (.absolute addr) 4 s)

/-- INC Zero_Page, opcode 0xE6 (R233): increment memory. -/
def execIncZp (zp : Byte) (s : State) : Host.Outcome State Fault Refusal := .next (modifyMemory (· + 1#8) (.zeroPage zp) 5 s)

/-- INC Absolute, opcode 0xEE (R233): increment memory. -/
def execIncAbs (addr : Word) (s : State) : Host.Outcome State Fault Refusal := .next (modifyMemory (· + 1#8) (.absolute addr) 6 s)

/-- INC Zero_Page_Indexed_X, opcode 0xF6 (R233): increment memory. -/
def execIncZpx (zp : Byte) (s : State) : Host.Outcome State Fault Refusal := .next (modifyMemory (· + 1#8) (.zeroPageX zp) 6 s)

/-- INC Absolute_Indexed_X, opcode 0xFE (R233): increment memory. -/
def execIncAbx (addr : Word) (s : State) : Host.Outcome State Fault Refusal := .next (modifyMemory (· + 1#8) (.absoluteX addr) 7 s)

/-- DEC Zero_Page, opcode 0xC6 (R234): decrement memory. -/
def execDecZp (zp : Byte) (s : State) : Host.Outcome State Fault Refusal := .next (modifyMemory (· - 1#8) (.zeroPage zp) 5 s)

/-- DEC Absolute, opcode 0xCE (R234): decrement memory. -/
def execDecAbs (addr : Word) (s : State) : Host.Outcome State Fault Refusal := .next (modifyMemory (· - 1#8) (.absolute addr) 6 s)

/-- DEC Zero_Page_Indexed_X, opcode 0xD6 (R234): decrement memory. -/
def execDecZpx (zp : Byte) (s : State) : Host.Outcome State Fault Refusal := .next (modifyMemory (· - 1#8) (.zeroPageX zp) 6 s)

/-- DEC Absolute_Indexed_X, opcode 0xDE (R234): decrement memory. -/
def execDecAbx (addr : Word) (s : State) : Host.Outcome State Fault Refusal := .next (modifyMemory (· - 1#8) (.absoluteX addr) 7 s)

/-- INX Implied, opcode 0xE8 (R235): increment X. -/
def execInx (s : State) : Host.Outcome State Fault Refusal := .next (modifyRegister (· + 1#8) .x 2 s)

/-- INY Implied, opcode 0xC8 (R236): increment Y. -/
def execIny (s : State) : Host.Outcome State Fault Refusal := .next (modifyRegister (· + 1#8) .y 2 s)

/-- DEX Implied, opcode 0xCA (R237): decrement X. -/
def execDex (s : State) : Host.Outcome State Fault Refusal := .next (modifyRegister (· - 1#8) .x 2 s)

/-- DEY Implied, opcode 0x88 (R238): decrement Y. -/
def execDey (s : State) : Host.Outcome State Fault Refusal := .next (modifyRegister (· - 1#8) .y 2 s)

end Sys2Proof.Machine
end

