-- ==== Sys2Proof/Machine/FlagsTransfer.lean ====
section
/-! DEFINITION. Flag instructions, register transfers, NOP and BRK (49_flags_transfer_misc.md R310–R325). BRK's entry is `takeTrap` of Ops.lean. -/

namespace Sys2Proof.Machine

open Sys2Proof

/-- SEC, CLC, SED, CLD, SEI, CLI, CLV: one flag (R310–R316). -/
def writeFlag (f : Flag) (v : Bool) (base : Nat) (s : State) : State := (s.setFlag f v).retire 1 base

/-- TAX, TXA, TAY, TYA, TSX: a copy and the general flag update (R317–R321). -/
def transfer (src dst : Reg8) (base : Nat) (s : State) : State := ((s.setReg dst (s.reg src)).setNZ (s.reg src)).retire 1 base

/-- TXS: a copy that sets no flag (R322). -/
def transferToStackPointer (base : Nat) (s : State) : State := (s.setReg .s s.x).retire 1 base

/-- NOP: PC moves past the byte and the cost is recorded, nothing else (R323). -/
def noOperation (base : Nat) (s : State) : State := s.retire 1 base

/-- SEC Implied, opcode 0x38 (R310): set carry. -/
def execSec (s : State) : Host.Outcome State Fault Refusal := .next (writeFlag .c true 2 s)

/-- CLC Implied, opcode 0x18 (R311): clear carry. -/
def execClc (s : State) : Host.Outcome State Fault Refusal := .next (writeFlag .c false 2 s)

/-- SED Implied, opcode 0xF8 (R312): set decimal mode. -/
def execSed (s : State) : Host.Outcome State Fault Refusal := .next (writeFlag .d true 2 s)

/-- CLD Implied, opcode 0xD8 (R313): clear decimal mode. -/
def execCld (s : State) : Host.Outcome State Fault Refusal := .next (writeFlag .d false 2 s)

/-- SEI Implied, opcode 0x78 (R314): set interrupt disable. -/
def execSei (s : State) : Host.Outcome State Fault Refusal := .next (writeFlag .i true 2 s)

/-- CLI Implied, opcode 0x58 (R315): clear interrupt disable. -/
def execCli (s : State) : Host.Outcome State Fault Refusal := .next (writeFlag .i false 2 s)

/-- CLV Implied, opcode 0xB8 (R316): clear overflow. -/
def execClv (s : State) : Host.Outcome State Fault Refusal := .next (writeFlag .v false 2 s)

/-- TAX Implied, opcode 0xAA (R317): A to X. -/
def execTax (s : State) : Host.Outcome State Fault Refusal := .next (transfer .a .x 2 s)

/-- TXA Implied, opcode 0x8A (R318): X to A. -/
def execTxa (s : State) : Host.Outcome State Fault Refusal := .next (transfer .x .a 2 s)

/-- TAY Implied, opcode 0xA8 (R319): A to Y. -/
def execTay (s : State) : Host.Outcome State Fault Refusal := .next (transfer .a .y 2 s)

/-- TYA Implied, opcode 0x98 (R320): Y to A. -/
def execTya (s : State) : Host.Outcome State Fault Refusal := .next (transfer .y .a 2 s)

/-- TSX Implied, opcode 0xBA (R321): S to X. -/
def execTsx (s : State) : Host.Outcome State Fault Refusal := .next (transfer .s .x 2 s)

/-- TXS Implied, opcode 0x9A (R322): X to S, no flags. -/
def execTxs (s : State) : Host.Outcome State Fault Refusal := .next (transferToStackPointer 2 s)

/-- NOP Implied, opcode 0xEA (R323): no operation. -/
def execNop (s : State) : Host.Outcome State Fault Refusal := .next (noOperation 2 s)

/-- BRK Implied, opcode 0x00 (R325): force break: the trap entry. -/
def execBrk (s : State) : Host.Outcome State Fault Refusal := .next (takeTrap 7 s)

end Sys2Proof.Machine
end

