-- ==== Sys2Proof/Machine/Jump.lean ====
section
/-! DEFINITION. Jumps, subroutines and returns (47_jump_subroutine.md R270–R273). The return from a trap is `returnFromTrap` of Ops.lean. -/

namespace Sys2Proof.Machine

open Sys2Proof

/-- JMP: PC from the effective address (R270). -/
def jump (m : MemOperand) (base : Nat) (s : State) : State := (s.setPc (effectiveAddress m s)).setCycles base

/-- JSR: the target is read first, then PC0 + 2 is pushed, high byte first (R271, 40_dispatch.md R124). -/
def callSubroutine (m : MemOperand) (base : Nat) (s : State) : State :=
  ((s.pushWord (s.pc + 2#16)).setPc (effectiveAddress m s)).setCycles base

/-- RTS: the pulled word plus one (R272). -/
def returnFromSubroutine (base : Nat) (s : State) : State :=
  (s.pullWord.2.setPc (s.pullWord.1 + 1#16)).setCycles base

/-- JMP Absolute, opcode 0x4C (R270): jump. -/
def execJmpAbs (addr : Word) (s : State) : Host.Outcome State Fault Refusal := .next (jump (.absolute addr) 3 s)

/-- JMP Indirect, opcode 0x6C (R270): jump. -/
def execJmpInd (ptr : Word) (s : State) : Host.Outcome State Fault Refusal := .next (jump (.indirect ptr) 5 s)

/-- JSR Absolute, opcode 0x20 (R271): jump to subroutine. -/
def execJsrAbs (addr : Word) (s : State) : Host.Outcome State Fault Refusal := .next (callSubroutine (.absolute addr) 6 s)

/-- RTS Implied, opcode 0x60 (R272): return from subroutine. -/
def execRts (s : State) : Host.Outcome State Fault Refusal := .next (returnFromSubroutine 6 s)

/-- RTI Implied, opcode 0x40 (R273): return from interrupt. -/
def execRti (s : State) : Host.Outcome State Fault Refusal := .next (returnFromTrap 6 s)

end Sys2Proof.Machine
end

