-- ==== Sys2Proof/Machine/LoadStore.lean ====
section
/-! DEFINITION. Loads and stores (42_load_store.md R170–R175). -/

namespace Sys2Proof.Machine

open Sys2Proof

/-- A load: the resolved byte into the register, and the general flag update (R170–R172). -/
def load (r : Reg8) (m : MemOperand) (base : Nat) (s : State) : State :=
  ((s.setReg r (operandByte m s)).setNZ (operandByte m s)).retire m.mode.length (base + pageExtra m s)

/-- A store: the register to the effective address, no flag (R173–R175). -/
def store (r : Reg8) (m : MemOperand) (base : Nat) (s : State) : State :=
  (s.writeByte (effectiveAddress m s) (s.reg r)).retire m.mode.length base

/-- LDA Indexed_Indirect, opcode 0xA1 (R170): load accumulator. -/
def execLdaIzx (zp : Byte) (s : State) : Host.Outcome State Fault Refusal := .next (load .a (.indexedIndirect zp) 6 s)

/-- LDA Zero_Page, opcode 0xA5 (R170): load accumulator. -/
def execLdaZp (zp : Byte) (s : State) : Host.Outcome State Fault Refusal := .next (load .a (.zeroPage zp) 3 s)

/-- LDA Immediate, opcode 0xA9 (R170): load accumulator. -/
def execLdaImm (imm : Byte) (s : State) : Host.Outcome State Fault Refusal := .next (load .a (.immediate imm) 2 s)

/-- LDA Absolute, opcode 0xAD (R170): load accumulator. -/
def execLdaAbs (addr : Word) (s : State) : Host.Outcome State Fault Refusal := .next (load .a (.absolute addr) 4 s)

/-- LDA Indirect_Indexed, opcode 0xB1 (R170): load accumulator. -/
def execLdaIzy (zp : Byte) (s : State) : Host.Outcome State Fault Refusal := .next (load .a (.indirectIndexed zp) 5 s)

/-- LDA Zero_Page_Indexed_X, opcode 0xB5 (R170): load accumulator. -/
def execLdaZpx (zp : Byte) (s : State) : Host.Outcome State Fault Refusal := .next (load .a (.zeroPageX zp) 4 s)

/-- LDA Absolute_Indexed_Y, opcode 0xB9 (R170): load accumulator. -/
def execLdaAby (addr : Word) (s : State) : Host.Outcome State Fault Refusal := .next (load .a (.absoluteY addr) 4 s)

/-- LDA Absolute_Indexed_X, opcode 0xBD (R170): load accumulator. -/
def execLdaAbx (addr : Word) (s : State) : Host.Outcome State Fault Refusal := .next (load .a (.absoluteX addr) 4 s)

/-- LDX Immediate, opcode 0xA2 (R171): load X. -/
def execLdxImm (imm : Byte) (s : State) : Host.Outcome State Fault Refusal := .next (load .x (.immediate imm) 2 s)

/-- LDX Zero_Page, opcode 0xA6 (R171): load X. -/
def execLdxZp (zp : Byte) (s : State) : Host.Outcome State Fault Refusal := .next (load .x (.zeroPage zp) 3 s)

/-- LDX Absolute, opcode 0xAE (R171): load X. -/
def execLdxAbs (addr : Word) (s : State) : Host.Outcome State Fault Refusal := .next (load .x (.absolute addr) 4 s)

/-- LDX Zero_Page_Indexed_Y, opcode 0xB6 (R171): load X. -/
def execLdxZpy (zp : Byte) (s : State) : Host.Outcome State Fault Refusal := .next (load .x (.zeroPageY zp) 4 s)

/-- LDX Absolute_Indexed_Y, opcode 0xBE (R171): load X. -/
def execLdxAby (addr : Word) (s : State) : Host.Outcome State Fault Refusal := .next (load .x (.absoluteY addr) 4 s)

/-- LDY Immediate, opcode 0xA0 (R172): load Y. -/
def execLdyImm (imm : Byte) (s : State) : Host.Outcome State Fault Refusal := .next (load .y (.immediate imm) 2 s)

/-- LDY Zero_Page, opcode 0xA4 (R172): load Y. -/
def execLdyZp (zp : Byte) (s : State) : Host.Outcome State Fault Refusal := .next (load .y (.zeroPage zp) 3 s)

/-- LDY Absolute, opcode 0xAC (R172): load Y. -/
def execLdyAbs (addr : Word) (s : State) : Host.Outcome State Fault Refusal := .next (load .y (.absolute addr) 4 s)

/-- LDY Zero_Page_Indexed_X, opcode 0xB4 (R172): load Y. -/
def execLdyZpx (zp : Byte) (s : State) : Host.Outcome State Fault Refusal := .next (load .y (.zeroPageX zp) 4 s)

/-- LDY Absolute_Indexed_X, opcode 0xBC (R172): load Y. -/
def execLdyAbx (addr : Word) (s : State) : Host.Outcome State Fault Refusal := .next (load .y (.absoluteX addr) 4 s)

/-- STA Indexed_Indirect, opcode 0x81 (R173): store accumulator. -/
def execStaIzx (zp : Byte) (s : State) : Host.Outcome State Fault Refusal := .next (store .a (.indexedIndirect zp) 6 s)

/-- STA Zero_Page, opcode 0x85 (R173): store accumulator. -/
def execStaZp (zp : Byte) (s : State) : Host.Outcome State Fault Refusal := .next (store .a (.zeroPage zp) 3 s)

/-- STA Absolute, opcode 0x8D (R173): store accumulator. -/
def execStaAbs (addr : Word) (s : State) : Host.Outcome State Fault Refusal := .next (store .a (.absolute addr) 4 s)

/-- STA Indirect_Indexed, opcode 0x91 (R173): store accumulator. -/
def execStaIzy (zp : Byte) (s : State) : Host.Outcome State Fault Refusal := .next (store .a (.indirectIndexed zp) 6 s)

/-- STA Zero_Page_Indexed_X, opcode 0x95 (R173): store accumulator. -/
def execStaZpx (zp : Byte) (s : State) : Host.Outcome State Fault Refusal := .next (store .a (.zeroPageX zp) 4 s)

/-- STA Absolute_Indexed_Y, opcode 0x99 (R173): store accumulator. -/
def execStaAby (addr : Word) (s : State) : Host.Outcome State Fault Refusal := .next (store .a (.absoluteY addr) 5 s)

/-- STA Absolute_Indexed_X, opcode 0x9D (R173): store accumulator. -/
def execStaAbx (addr : Word) (s : State) : Host.Outcome State Fault Refusal := .next (store .a (.absoluteX addr) 5 s)

/-- STX Zero_Page, opcode 0x86 (R174): store X. -/
def execStxZp (zp : Byte) (s : State) : Host.Outcome State Fault Refusal := .next (store .x (.zeroPage zp) 3 s)

/-- STX Absolute, opcode 0x8E (R174): store X. -/
def execStxAbs (addr : Word) (s : State) : Host.Outcome State Fault Refusal := .next (store .x (.absolute addr) 4 s)

/-- STX Zero_Page_Indexed_Y, opcode 0x96 (R174): store X. -/
def execStxZpy (zp : Byte) (s : State) : Host.Outcome State Fault Refusal := .next (store .x (.zeroPageY zp) 4 s)

/-- STY Zero_Page, opcode 0x84 (R175): store Y. -/
def execStyZp (zp : Byte) (s : State) : Host.Outcome State Fault Refusal := .next (store .y (.zeroPage zp) 3 s)

/-- STY Absolute, opcode 0x8C (R175): store Y. -/
def execStyAbs (addr : Word) (s : State) : Host.Outcome State Fault Refusal := .next (store .y (.absolute addr) 4 s)

/-- STY Zero_Page_Indexed_X, opcode 0x94 (R175): store Y. -/
def execStyZpx (zp : Byte) (s : State) : Host.Outcome State Fault Refusal := .next (store .y (.zeroPageX zp) 4 s)

end Sys2Proof.Machine
end

