-- ==== Sys2Proof/Machine/Shift.lean ====
section
/-! DEFINITION. Shifts and rotates (44_shift_rotate.md R210–R213): the common frame over A or a memory byte. The four functions on a byte and C are in Flags.lean. -/

namespace Sys2Proof.Machine

open Sys2Proof

/-- The common frame in Accumulator mode. -/
def shiftAccumulator (f : Byte → Bool → ShiftResult) (base : Nat) (s : State) : State :=
  let r := f s.a (s.flag .c)
  (((s.setReg .a r.value).setFlag .c r.carry).setNZ r.value).retire 1 base

/-- The common frame in the memory modes: one read of the address, then one write (41_addressing.md R155). -/
def shiftMemory (f : Byte → Bool → ShiftResult) (m : MemOperand) (base : Nat) (s : State) : State :=
  let r := f (operandByte m s) (s.flag .c)
  (((s.writeByte (effectiveAddress m s) r.value).setFlag .c r.carry).setNZ r.value).retire m.mode.length base

/-- ASL Zero_Page, opcode 0x06 (R210): arithmetic shift left. -/
def execAslZp (zp : Byte) (s : State) : Host.Outcome State Fault Refusal := .next (shiftMemory shiftLeft (.zeroPage zp) 5 s)

/-- ASL Accumulator, opcode 0x0A (R210): arithmetic shift left. -/
def execAslAcc (s : State) : Host.Outcome State Fault Refusal := .next (shiftAccumulator shiftLeft 2 s)

/-- ASL Absolute, opcode 0x0E (R210): arithmetic shift left. -/
def execAslAbs (addr : Word) (s : State) : Host.Outcome State Fault Refusal := .next (shiftMemory shiftLeft (.absolute addr) 6 s)

/-- ASL Zero_Page_Indexed_X, opcode 0x16 (R210): arithmetic shift left. -/
def execAslZpx (zp : Byte) (s : State) : Host.Outcome State Fault Refusal := .next (shiftMemory shiftLeft (.zeroPageX zp) 6 s)

/-- ASL Absolute_Indexed_X, opcode 0x1E (R210): arithmetic shift left. -/
def execAslAbx (addr : Word) (s : State) : Host.Outcome State Fault Refusal := .next (shiftMemory shiftLeft (.absoluteX addr) 7 s)

/-- LSR Zero_Page, opcode 0x46 (R211): logical shift right. -/
def execLsrZp (zp : Byte) (s : State) : Host.Outcome State Fault Refusal := .next (shiftMemory shiftRight (.zeroPage zp) 5 s)

/-- LSR Accumulator, opcode 0x4A (R211): logical shift right. -/
def execLsrAcc (s : State) : Host.Outcome State Fault Refusal := .next (shiftAccumulator shiftRight 2 s)

/-- LSR Absolute, opcode 0x4E (R211): logical shift right. -/
def execLsrAbs (addr : Word) (s : State) : Host.Outcome State Fault Refusal := .next (shiftMemory shiftRight (.absolute addr) 6 s)

/-- LSR Zero_Page_Indexed_X, opcode 0x56 (R211): logical shift right. -/
def execLsrZpx (zp : Byte) (s : State) : Host.Outcome State Fault Refusal := .next (shiftMemory shiftRight (.zeroPageX zp) 6 s)

/-- LSR Absolute_Indexed_X, opcode 0x5E (R211): logical shift right. -/
def execLsrAbx (addr : Word) (s : State) : Host.Outcome State Fault Refusal := .next (shiftMemory shiftRight (.absoluteX addr) 7 s)

/-- ROL Zero_Page, opcode 0x26 (R212): rotate left through carry. -/
def execRolZp (zp : Byte) (s : State) : Host.Outcome State Fault Refusal := .next (shiftMemory rotateLeft (.zeroPage zp) 5 s)

/-- ROL Accumulator, opcode 0x2A (R212): rotate left through carry. -/
def execRolAcc (s : State) : Host.Outcome State Fault Refusal := .next (shiftAccumulator rotateLeft 2 s)

/-- ROL Absolute, opcode 0x2E (R212): rotate left through carry. -/
def execRolAbs (addr : Word) (s : State) : Host.Outcome State Fault Refusal := .next (shiftMemory rotateLeft (.absolute addr) 6 s)

/-- ROL Zero_Page_Indexed_X, opcode 0x36 (R212): rotate left through carry. -/
def execRolZpx (zp : Byte) (s : State) : Host.Outcome State Fault Refusal := .next (shiftMemory rotateLeft (.zeroPageX zp) 6 s)

/-- ROL Absolute_Indexed_X, opcode 0x3E (R212): rotate left through carry. -/
def execRolAbx (addr : Word) (s : State) : Host.Outcome State Fault Refusal := .next (shiftMemory rotateLeft (.absoluteX addr) 7 s)

/-- ROR Zero_Page, opcode 0x66 (R213): rotate right through carry. -/
def execRorZp (zp : Byte) (s : State) : Host.Outcome State Fault Refusal := .next (shiftMemory rotateRight (.zeroPage zp) 5 s)

/-- ROR Accumulator, opcode 0x6A (R213): rotate right through carry. -/
def execRorAcc (s : State) : Host.Outcome State Fault Refusal := .next (shiftAccumulator rotateRight 2 s)

/-- ROR Absolute, opcode 0x6E (R213): rotate right through carry. -/
def execRorAbs (addr : Word) (s : State) : Host.Outcome State Fault Refusal := .next (shiftMemory rotateRight (.absolute addr) 6 s)

/-- ROR Zero_Page_Indexed_X, opcode 0x76 (R213): rotate right through carry. -/
def execRorZpx (zp : Byte) (s : State) : Host.Outcome State Fault Refusal := .next (shiftMemory rotateRight (.zeroPageX zp) 6 s)

/-- ROR Absolute_Indexed_X, opcode 0x7E (R213): rotate right through carry. -/
def execRorAbx (addr : Word) (s : State) : Host.Outcome State Fault Refusal := .next (shiftMemory rotateRight (.absoluteX addr) 7 s)

end Sys2Proof.Machine
end

