-- ==== Sys2Proof/Machine/Stack.lean ====
section
/-! DEFINITION. The stack instructions (48_stack.md R290–R293). -/

namespace Sys2Proof.Machine

open Sys2Proof

/-- PHA (R290). -/
def pushAccumulator (base : Nat) (s : State) : State := (s.push s.a).retire 1 base

/-- PHP: the pushed image has bits 5 and 4 set (R291). -/
def pushStatus (base : Nat) (s : State) : State := (s.push (pushImage s.p)).retire 1 base

/-- PLA: the pulled byte into A, and the general flag update (R292). -/
def pullAccumulator (base : Nat) (s : State) : State :=
  ((s.pull.2.setReg .a s.pull.1).setNZ s.pull.1).retire 1 base

/-- PLP: the pulled byte into P, bit 5 forced to 1 and bit 4 dropped (R293). -/
def pullStatus (base : Nat) (s : State) : State := (s.pull.2.writeP s.pull.1).retire 1 base

/-- PHA Implied, opcode 0x48 (R290): push accumulator. -/
def execPha (s : State) : Host.Outcome State Fault Refusal := .next (pushAccumulator 3 s)

/-- PHP Implied, opcode 0x08 (R291): push processor status. -/
def execPhp (s : State) : Host.Outcome State Fault Refusal := .next (pushStatus 3 s)

/-- PLA Implied, opcode 0x68 (R292): pull accumulator. -/
def execPla (s : State) : Host.Outcome State Fault Refusal := .next (pullAccumulator 4 s)

/-- PLP Implied, opcode 0x28 (R293): pull processor status. -/
def execPlp (s : State) : Host.Outcome State Fault Refusal := .next (pullStatus 4 s)

end Sys2Proof.Machine
end

