-- ==== Sys2Proof/Machine/Fetch.lean ====
section
/-! DEFINITION. Fetching an instruction's bytes, decoding them and running what they say (40_dispatch.md R121–R125), and placing bytes where the fetch reads them. -/

namespace Sys2Proof.Machine

open Sys2Proof

/-- The three bytes from PC upward, wrapping (30_encoding.md R91). A shorter instruction leaves the last ones unused; a read
has no effect (20_memory.md R62, log 10). -/
def fetchBytes (s : State) : List Byte := [s.readByte s.pc, s.readByte (s.pc + 1#16), s.readByte (s.pc + 2#16)]

/-- The fetch writes `last_opcode` and nothing else (R121). -/
def noteFetch (s : State) : State := { s with lastOpcode := some (s.readByte s.pc) }

/-- Fetch, decode, execute in `Ready` (R121–R125); fault entry where the byte has no entry (60_exceptions.md R341–R342).
Three bytes are never too few, so the decoder's only error here is that one. -/
def runFetched (s : State) : Host.Outcome State Fault Refusal :=
  match decode (fetchBytes s) with
  | .ok (i, _) => exec i (noteFetch s)
  | .error _ => .next (haltWith .unimplementedOpcode (s.readByte s.pc) (noteFetch s))

/-- Bytes stored at rising addresses from `a`, wrapping. -/
def storeBytes (a : Word) : List Byte → State → State
  | [], s => s
  | v :: rest, s => storeBytes (a + 1#16) rest (s.writeByte a v)

/-- Bytes stored at PC, the run state `Ready` and no fault pending, so that the next step fetches them (log 7). -/
def placeInstruction (bytes : List Byte) (s : State) : State :=
  { storeBytes s.pc bytes s with runState := .ready, fault := none }

end Sys2Proof.Machine
end

