-- ==== Sys2Proof/Machine/Step.lean ====
section
/-! DEFINITION. The step cycle (40_dispatch.md R120–R130) and what the host uses to place an instruction at the program counter. -/

namespace Sys2Proof.Machine

open Sys2Proof

/-- One `step()` (R120): the checks in R351's order, then fetch, decode and execute. A byte with no table entry takes the
fault entry, a next state in `Halted` that holds the record (60_exceptions.md R341–R342, log 8). -/
def step (s : State) : Host.Outcome State Fault Refusal :=
  match s.runState with
  | .uninitialized => .fault .notInitialized
  | .halted => .fault (.halted s.fault)
  | .ready => runFetched s

/-- `s` with an instruction's bytes stored where `step` fetches next, ready to run (log 7). -/
def State.withFetchWord (s : State) (nbits w : Nat) : State := placeInstruction (tableBytes nbits w) s

end Sys2Proof.Machine
end

