-- ==== Sys2Proof/Machine/Commands.lean ====
section
/-! DEFINITION. The host's commands and ports (00_scope.md R6): `construct`, `initialize`, the fixture launch state, the value `step()` returns, and the read-only observation ports. -/

namespace Sys2Proof.Machine

open Sys2Proof

/-- The legal status bytes: bit 5 = 1 and bit 4 = 0 (10_state.md R29, R30, R49). -/
def statusLegal (p : Byte) : Bool := p.getLsbD 5 && !p.getLsbD 4

/-- Legal parameters: `INIT_P` as R5 constrains it, `INIT_MEM` in canonical form. -/
def initLegal (ip : InitParams) : Bool := statusLegal ip.p && Memory.wf ip.mem

/-- The vector bytes of a given, non-zero entry point, low then high (70_reset_and_hazards.md R371–R372). -/
def entryBytes : Option Word → List Byte
  | none => []
  | some e => if e = 0x0000#16 then [] else [loByte e, hiByte e]

/-- `construct(rom_bytes, load_address, entry_point)` (R371): the image, then the entry point over it, in `INIT_MEM`;
registers at `INIT_*`; refused where the image does not fit. -/
def construct (ip : InitParams) (cfg : Config) (rom : List Byte) (loadAddress : Nat := 0) (entryPoint : Option Word := none) :
    Host.Outcome State Fault Refusal :=
  if loadAddress ≤ 0xFFFF ∧ loadAddress + rom.length ≤ 65536 then
    .next
      { a := ip.a, x := ip.x, y := ip.y, s := ip.s, pc := ip.pc, p := ip.p
        mem := (Memory.load ip.mem loadAddress rom).load Config.resetVector.toNat (entryBytes entryPoint)
        runState := .uninitialized, lastOpcode := none, cyclesLast := 0x00#8, fault := none, cfg := cfg }
  else .refused .imageOutOfRange

/-- `initialize()` (R373): PC from the reset vector, run state `Ready`, nothing else; refused outside `Uninitialized`. -/
def initializeCore (s : State) : Host.Outcome State Fault Refusal :=
  match s.runState with
  | .uninitialized => .next { s with pc := s.readWord Config.resetVector, runState := .ready }
  | .ready => .refused .alreadyInitialized
  | .halted => .refused .alreadyInitialized

/-- A fixture launch state (R375): `Ready`, with the registers and memory given; refused where P or the memory's form breaks
10_state.md R49. -/
def fixture (cfg : Config) (a x y sp p : Byte) (pc : Word) (mem : Memory) : Host.Outcome State Fault Refusal :=
  if statusLegal p && mem.wf then
    .next
      { a := a, x := x, y := y, s := sp, pc := pc, p := p, mem := mem
        runState := .ready, lastOpcode := none, cyclesLast := 0x00#8, fault := none, cfg := cfg }
  else .refused .fixtureInvalid

/-- What `step()` gives back to the host: the cycle cost (40_dispatch.md R126) or the fault (60_exceptions.md R341, R345, R346). -/
inductive StepReturn where
  | cycles  (n : Byte)
  | fault   (f : Fault)
  | refused (r : Refusal)
deriving DecidableEq, Repr

/-- The command `step()` as the host sees it: the state after it and what it returns. A step whose next state is `Halted`
has raised the fault it stored (R341); a step that answers a fault changes nothing (R345, R346). -/
def hostStep (s : State) : State × StepReturn :=
  match step s with
  | .next t =>
    match t.runState with
    | .halted => (t, .fault (.halted t.fault))
    | .uninitialized => (t, .cycles t.cyclesLast)
    | .ready => (t, .cycles t.cyclesLast)
  | .fault f => (s, .fault f)
  | .refused r => (s, .refused r)

/-- The register ports (00_scope.md R6, 60_exceptions.md R358). -/
structure Ports where
  pc : Word
  a : Byte
  x : Byte
  y : Byte
  s : Byte
  status : Byte
  lastOpcode : Option Byte
  cyclesLast : Byte
deriving DecidableEq, Repr

/-- Reading the register ports. -/
def State.ports (s : State) : Ports := ⟨s.pc, s.a, s.x, s.y, s.s, s.p, s.lastOpcode, s.cyclesLast⟩

/-- The host's read of a memory byte (20_memory.md R79). -/
def State.peek (s : State) (a : Word) : Byte := s.readByte a

end Sys2Proof.Machine
end

