-- ==== Sys2Proof/WellFormed.lean ====
section
/-! DEFINITION. Well-formedness: an instruction pairs a mnemonic with a mode of its supported set (30_encoding.md R96, R100). Operand fields are whole bytes and words by their types (R92), so nothing else can be ill-formed. -/

namespace Sys2Proof

/-- The modes each mnemonic has (R96). -/
def Mnemonic.modes : Mnemonic → List Mode
  | .lda => [.indexedIndirect, .zeroPage, .immediate, .absolute, .indirectIndexed, .zeroPageX, .absoluteY, .absoluteX]
  | .ldx => [.immediate, .zeroPage, .absolute, .zeroPageY, .absoluteY]
  | .ldy => [.immediate, .zeroPage, .absolute, .zeroPageX, .absoluteX]
  | .sta => [.indexedIndirect, .zeroPage, .absolute, .indirectIndexed, .zeroPageX, .absoluteY, .absoluteX]
  | .stx => [.zeroPage, .absolute, .zeroPageY]
  | .sty => [.zeroPage, .absolute, .zeroPageX]
  | .adc => [.indexedIndirect, .zeroPage, .immediate, .absolute, .indirectIndexed, .zeroPageX, .absoluteY, .absoluteX]
  | .sbc => [.indexedIndirect, .zeroPage, .immediate, .absolute, .indirectIndexed, .zeroPageX, .absoluteY, .absoluteX]
  | .and => [.indexedIndirect, .zeroPage, .immediate, .absolute, .indirectIndexed, .zeroPageX, .absoluteY, .absoluteX]
  | .ora => [.indexedIndirect, .zeroPage, .immediate, .absolute, .indirectIndexed, .zeroPageX, .absoluteY, .absoluteX]
  | .eor => [.indexedIndirect, .zeroPage, .immediate, .absolute, .indirectIndexed, .zeroPageX, .absoluteY, .absoluteX]
  | .bit => [.zeroPage, .absolute]
  | .asl => [.zeroPage, .accumulator, .absolute, .zeroPageX, .absoluteX]
  | .lsr => [.zeroPage, .accumulator, .absolute, .zeroPageX, .absoluteX]
  | .rol => [.zeroPage, .accumulator, .absolute, .zeroPageX, .absoluteX]
  | .ror => [.zeroPage, .accumulator, .absolute, .zeroPageX, .absoluteX]
  | .cmp => [.indexedIndirect, .zeroPage, .immediate, .absolute, .indirectIndexed, .zeroPageX, .absoluteY, .absoluteX]
  | .cpx => [.immediate, .zeroPage, .absolute]
  | .cpy => [.immediate, .zeroPage, .absolute]
  | .inc => [.zeroPage, .absolute, .zeroPageX, .absoluteX]
  | .dec => [.zeroPage, .absolute, .zeroPageX, .absoluteX]
  | .inx => [.implied]
  | .iny => [.implied]
  | .dex => [.implied]
  | .dey => [.implied]
  | .bcc => [.relative]
  | .bcs => [.relative]
  | .bne => [.relative]
  | .beq => [.relative]
  | .bpl => [.relative]
  | .bmi => [.relative]
  | .bvc => [.relative]
  | .bvs => [.relative]
  | .jmp => [.absolute, .indirect]
  | .jsr => [.absolute]
  | .rts => [.implied]
  | .rti => [.implied]
  | .pha => [.implied]
  | .php => [.implied]
  | .pla => [.implied]
  | .plp => [.implied]
  | .sec => [.implied]
  | .clc => [.implied]
  | .sed => [.implied]
  | .cld => [.implied]
  | .sei => [.implied]
  | .cli => [.implied]
  | .clv => [.implied]
  | .tax => [.implied]
  | .txa => [.implied]
  | .tay => [.implied]
  | .tya => [.implied]
  | .tsx => [.implied]
  | .txs => [.implied]
  | .nop => [.implied]
  | .brk => [.implied]

/-- A mnemonic with an operand, before it is known to be a row of the table. -/
structure RawInstr where
  mnemonic : Mnemonic
  operand  : Operand
deriving DecidableEq, Repr

/-- The pair is in the supported set; the other pairs are what `InvalidAddressingModeForInstruction` names (R100). -/
def RawInstr.wellFormed (r : RawInstr) : Bool := r.mnemonic.modes.contains r.operand.mode

/-- An instruction as its pair. -/
def Instr.raw (i : Instr) : RawInstr := ⟨i.mnemonic, i.operand⟩

/-- The check on an instruction. -/
def Instr.wellFormed (i : Instr) : Bool := i.raw.wellFormed

end Sys2Proof
end

