-- ==== Sys2Proof/Safety.lean ====
section
/-! DEFINITION. What counts as a safe run: the invariants of 10_state.md R49 with the control state's (R43, R46), the reachable states, and the words the claims use: what a step keeps, which bytes have no table entry, which flags an instruction writes, which row of its rule it follows. -/

namespace Sys2Proof.Machine

open Sys2Proof

/-! ## The invariants and the reachable states -/

/-- The invariants of every reachable state: R49's (bit 5 = 1, bit 4 = 0, 65536 bytes in their one form), the cost within
70_reset_and_hazards.md R383's bound, no fault record outside `Halted` (R46), and in `Halted` the record of the byte at PC
that has no table entry (60_exceptions.md R341–R342). -/
structure Inv (s : State) : Prop where
  reservedBit  : s.p.getLsbD 5 = true
  breakBit     : s.p.getLsbD 4 = false
  memory       : s.mem.wf = true
  cost         : s.cyclesLast.toNat ≤ 7
  noFault      : s.runState ≠ .halted → s.fault = none
  haltedRecord : s.runState = .halted →
    opcodeEntry (s.readByte s.pc) = none ∧ s.lastOpcode = some (s.readByte s.pc) ∧
      s.fault = some ⟨.unimplementedOpcode, s.readByte s.pc, s.pc⟩

/-- The states the host can bring about (00_scope.md R6, 70_reset_and_hazards.md R370, R375): by `construct` with legal
parameters, `initialize`, a fixture launch state, and steps. -/
inductive Reachable : State → Prop
  | constructed {ip cfg rom la ep s} : initLegal ip = true → construct ip cfg rom la ep = .next s → Reachable s
  | initialized {s t} : Reachable s → initializeCore s = .next t → Reachable t
  | launched {cfg a x y sp p pc mem s} : fixture cfg a x y sp p pc mem = .next s → Reachable s
  | stepped {s t} : Reachable s → step s = .next t → Reachable t

/-! ## What a step keeps -/

/-- Every named 8-bit register outside `written` reads as before. -/
def RegsKept (written : List Reg8) (s t : State) : Prop := ∀ r, r ∉ written → t.reg r = s.reg r

/-- Every bit of P, bits 5 and 4 among them, is as before unless it is the bit of a flag in `written`. -/
def StatusKept (written : List Flag) (s t : State) : Prop :=
  ∀ k, k < 8 → (∀ f ∈ written, f.bit ≠ k) → t.p.getLsbD k = s.p.getLsbD k

/-- Every address outside `stored` reads as before. -/
def MemKept (stored : List Word) (s t : State) : Prop := ∀ a : Word, a ∉ stored → t.readByte a = s.readByte a

/-- The control state that `exec` leaves alone: run state, last opcode, fault record, and the parameter. -/
def ControlKept (s t : State) : Prop :=
  t.runState = s.runState ∧ t.lastOpcode = s.lastOpcode ∧ t.fault = s.fault ∧ t.cfg = s.cfg

/-- `exec i` at `s` answers a next state, of which `Q` holds. -/
def Completes (i : Instr) (s : State) (Q : State → Prop) : Prop := ∃ t, exec i s = .next t ∧ Q t

/-- Z and N of `t` are those of the general flag update on `r` (10_state.md R36). -/
def FlagsOf (r : Byte) (t : State) : Prop := t.flag .z = decide (r.toNat = 0) ∧ t.flag .n = decide (128 ≤ r.toNat)

/-! ## Tables of the spec that claims compare with -/

/-- The 105 bytes with no table entry, as 30_encoding.md R98 lists them. -/
def undefinedOpcodes : List Byte :=
  [0x02#8, 0x03#8, 0x04#8, 0x07#8, 0x0B#8, 0x0C#8, 0x0F#8, 0x12#8, 0x13#8, 0x14#8, 0x17#8, 0x1A#8, 0x1B#8, 0x1C#8, 0x1F#8] ++
  [0x22#8, 0x23#8, 0x27#8, 0x2B#8, 0x2F#8, 0x32#8, 0x33#8, 0x34#8, 0x37#8, 0x3A#8, 0x3B#8, 0x3C#8, 0x3F#8, 0x42#8, 0x43#8] ++
  [0x44#8, 0x47#8, 0x4B#8, 0x4F#8, 0x52#8, 0x53#8, 0x54#8, 0x57#8, 0x5A#8, 0x5B#8, 0x5C#8, 0x5F#8, 0x62#8, 0x63#8, 0x64#8] ++
  [0x67#8, 0x6B#8, 0x6F#8, 0x72#8, 0x73#8, 0x74#8, 0x77#8, 0x7A#8, 0x7B#8, 0x7C#8, 0x7F#8, 0x80#8, 0x82#8, 0x83#8, 0x87#8] ++
  [0x89#8, 0x8B#8, 0x8F#8, 0x92#8, 0x93#8, 0x97#8, 0x9B#8, 0x9C#8, 0x9E#8, 0x9F#8, 0xA3#8, 0xA7#8, 0xAB#8, 0xAF#8, 0xB2#8] ++
  [0xB3#8, 0xB7#8, 0xBB#8, 0xBF#8, 0xC2#8, 0xC3#8, 0xC7#8, 0xCB#8, 0xCF#8, 0xD2#8, 0xD3#8, 0xD4#8, 0xD7#8, 0xDA#8, 0xDB#8] ++
  [0xDC#8, 0xDF#8, 0xE2#8, 0xE3#8, 0xE7#8, 0xEB#8, 0xEF#8, 0xF2#8, 0xF3#8, 0xF4#8, 0xF7#8, 0xFA#8, 0xFB#8, 0xFC#8, 0xFF#8]

/-- The eight branches' conditions: the flag tested and the value it is tested for (46_branch.md R250's table). -/
def branchCondition : Mnemonic → Option (Flag × Bool)
  | .bpl => some (.n, false)
  | .bmi => some (.n, true)
  | .bvc => some (.v, false)
  | .bvs => some (.v, true)
  | .bcc => some (.c, false)
  | .bcs => some (.c, true)
  | .bne => some (.z, false)
  | .beq => some (.z, true)
  | .lda | .ldx | .ldy | .sta | .stx | .sty | .adc | .sbc | .and | .ora | .eor | .bit | .asl | .lsr | .rol | .ror
  | .cmp | .cpx | .cpy | .inc | .dec | .inx | .iny | .dex | .dey | .jmp | .jsr | .rts | .rti | .pha | .php | .pla | .plp
  | .sec | .clc | .sed | .cld | .sei | .cli | .clv | .tax | .txa | .tay | .tya | .tsx | .txs | .nop | .brk => none

/-- The flags each instruction writes: the columns of 10_state.md R41's table that are not `-`. -/
def flagsWritten : Mnemonic → List Flag
  | .lda | .ldx | .ldy => [.n, .z]
  | .sta | .stx | .sty => []
  | .adc | .sbc => [.n, .v, .z, .c]
  | .and | .ora | .eor => [.n, .z]
  | .bit => [.n, .v, .z]
  | .asl | .lsr | .rol | .ror => [.n, .z, .c]
  | .cmp | .cpx | .cpy => [.n, .z, .c]
  | .inc | .dec | .inx | .iny | .dex | .dey => [.n, .z]
  | .bcc | .bcs | .bne | .beq | .bpl | .bmi | .bvc | .bvs => []
  | .jmp | .jsr | .rts => []
  | .rti => [.n, .v, .b, .d, .i, .z, .c]
  | .pha | .php => []
  | .pla => [.n, .z]
  | .plp => [.n, .v, .b, .d, .i, .z, .c]
  | .sec | .clc => [.c]
  | .sed | .cld => [.d]
  | .sei | .cli => [.i]
  | .clv => [.v]
  | .tax | .txa | .tay | .tya | .tsx => [.n, .z]
  | .txs => []
  | .brk => [.i]
  | .nop => []

/-- What each read-modify-write instruction makes of a byte `v` with carry `c` (44_shift_rotate.md R210–R213,
45_compare_incdec.md R233–R234), as numbers. -/
def modifiedByte (v c : Nat) : List (Mnemonic × Nat) :=
  [(.asl, v * 2 % 256), (.lsr, v / 2), (.rol, (v * 2 + c) % 256), (.ror, v / 2 + 128 * c), (.inc, (v + 1) % 256),
    (.dec, (v + 255) % 256)]

/-- The Encoding table of each instruction's own rule (42_load_store.md R170 to 49_flags_transfer_misc.md R325), row by row:
mode, opcode, base cycles, extra cycles. -/
def ruleRows : Mnemonic → List (Mode × Byte × Nat × ExtraCycles)
  | .lda => [(.indexedIndirect, 0xA1#8, 6, .none), (.zeroPage, 0xA5#8, 3, .none), (.immediate, 0xA9#8, 2, .none),
    (.absolute, 0xAD#8, 4, .none), (.indirectIndexed, 0xB1#8, 5, .page), (.zeroPageX, 0xB5#8, 4, .none),
    (.absoluteY, 0xB9#8, 4, .page), (.absoluteX, 0xBD#8, 4, .page)]
  | .ldx => [(.immediate, 0xA2#8, 2, .none), (.zeroPage, 0xA6#8, 3, .none), (.absolute, 0xAE#8, 4, .none),
    (.zeroPageY, 0xB6#8, 4, .none), (.absoluteY, 0xBE#8, 4, .page)]
  | .ldy => [(.immediate, 0xA0#8, 2, .none), (.zeroPage, 0xA4#8, 3, .none), (.absolute, 0xAC#8, 4, .none),
    (.zeroPageX, 0xB4#8, 4, .none), (.absoluteX, 0xBC#8, 4, .page)]
  | .sta => [(.indexedIndirect, 0x81#8, 6, .none), (.zeroPage, 0x85#8, 3, .none), (.absolute, 0x8D#8, 4, .none),
    (.indirectIndexed, 0x91#8, 6, .none), (.zeroPageX, 0x95#8, 4, .none), (.absoluteY, 0x99#8, 5, .none),
    (.absoluteX, 0x9D#8, 5, .none)]
  | .stx => [(.zeroPage, 0x86#8, 3, .none), (.absolute, 0x8E#8, 4, .none), (.zeroPageY, 0x96#8, 4, .none)]
  | .sty => [(.zeroPage, 0x84#8, 3, .none), (.absolute, 0x8C#8, 4, .none), (.zeroPageX, 0x94#8, 4, .none)]
  | .adc => [(.indexedIndirect, 0x61#8, 6, .none), (.zeroPage, 0x65#8, 3, .none), (.immediate, 0x69#8, 2, .none),
    (.absolute, 0x6D#8, 4, .none), (.indirectIndexed, 0x71#8, 5, .page), (.zeroPageX, 0x75#8, 4, .none),
    (.absoluteY, 0x79#8, 4, .page), (.absoluteX, 0x7D#8, 4, .page)]
  | .sbc => [(.indexedIndirect, 0xE1#8, 6, .none), (.zeroPage, 0xE5#8, 3, .none), (.immediate, 0xE9#8, 2, .none),
    (.absolute, 0xED#8, 4, .none), (.indirectIndexed, 0xF1#8, 5, .page), (.zeroPageX, 0xF5#8, 4, .none),
    (.absoluteY, 0xF9#8, 4, .page), (.absoluteX, 0xFD#8, 4, .page)]
  | .and => [(.indexedIndirect, 0x21#8, 6, .none), (.zeroPage, 0x25#8, 3, .none), (.immediate, 0x29#8, 2, .none),
    (.absolute, 0x2D#8, 4, .none), (.indirectIndexed, 0x31#8, 5, .page), (.zeroPageX, 0x35#8, 4, .none),
    (.absoluteY, 0x39#8, 4, .page), (.absoluteX, 0x3D#8, 4, .page)]
  | .ora => [(.indexedIndirect, 0x01#8, 6, .none), (.zeroPage, 0x05#8, 3, .none), (.immediate, 0x09#8, 2, .none),
    (.absolute, 0x0D#8, 4, .none), (.indirectIndexed, 0x11#8, 5, .page), (.zeroPageX, 0x15#8, 4, .none),
    (.absoluteY, 0x19#8, 4, .page), (.absoluteX, 0x1D#8, 4, .page)]
  | .eor => [(.indexedIndirect, 0x41#8, 6, .none), (.zeroPage, 0x45#8, 3, .none), (.immediate, 0x49#8, 2, .none),
    (.absolute, 0x4D#8, 4, .none), (.indirectIndexed, 0x51#8, 5, .page), (.zeroPageX, 0x55#8, 4, .none),
    (.absoluteY, 0x59#8, 4, .page), (.absoluteX, 0x5D#8, 4, .page)]
  | .bit => [(.zeroPage, 0x24#8, 3, .none), (.absolute, 0x2C#8, 4, .none)]
  | .asl => [(.zeroPage, 0x06#8, 5, .none), (.accumulator, 0x0A#8, 2, .none), (.absolute, 0x0E#8, 6, .none),
    (.zeroPageX, 0x16#8, 6, .none), (.absoluteX, 0x1E#8, 7, .none)]
  | .lsr => [(.zeroPage, 0x46#8, 5, .none), (.accumulator, 0x4A#8, 2, .none), (.absolute, 0x4E#8, 6, .none),
    (.zeroPageX, 0x56#8, 6, .none), (.absoluteX, 0x5E#8, 7, .none)]
  | .rol => [(.zeroPage, 0x26#8, 5, .none), (.accumulator, 0x2A#8, 2, .none), (.absolute, 0x2E#8, 6, .none),
    (.zeroPageX, 0x36#8, 6, .none), (.absoluteX, 0x3E#8, 7, .none)]
  | .ror => [(.zeroPage, 0x66#8, 5, .none), (.accumulator, 0x6A#8, 2, .none), (.absolute, 0x6E#8, 6, .none),
    (.zeroPageX, 0x76#8, 6, .none), (.absoluteX, 0x7E#8, 7, .none)]
  | .cmp => [(.indexedIndirect, 0xC1#8, 6, .none), (.zeroPage, 0xC5#8, 3, .none), (.immediate, 0xC9#8, 2, .none),
    (.absolute, 0xCD#8, 4, .none), (.indirectIndexed, 0xD1#8, 5, .page), (.zeroPageX, 0xD5#8, 4, .none),
    (.absoluteY, 0xD9#8, 4, .page), (.absoluteX, 0xDD#8, 4, .page)]
  | .cpx => [(.immediate, 0xE0#8, 2, .none), (.zeroPage, 0xE4#8, 3, .none), (.absolute, 0xEC#8, 4, .none)]
  | .cpy => [(.immediate, 0xC0#8, 2, .none), (.zeroPage, 0xC4#8, 3, .none), (.absolute, 0xCC#8, 4, .none)]
  | .inc => [(.zeroPage, 0xE6#8, 5, .none), (.absolute, 0xEE#8, 6, .none), (.zeroPageX, 0xF6#8, 6, .none),
    (.absoluteX, 0xFE#8, 7, .none)]
  | .dec => [(.zeroPage, 0xC6#8, 5, .none), (.absolute, 0xCE#8, 6, .none), (.zeroPageX, 0xD6#8, 6, .none),
    (.absoluteX, 0xDE#8, 7, .none)]
  | .inx => [(.implied, 0xE8#8, 2, .none)]
  | .iny => [(.implied, 0xC8#8, 2, .none)]
  | .dex => [(.implied, 0xCA#8, 2, .none)]
  | .dey => [(.implied, 0x88#8, 2, .none)]
  | .bcc => [(.relative, 0x90#8, 2, .branch)]
  | .bcs => [(.relative, 0xB0#8, 2, .branch)]
  | .bne => [(.relative, 0xD0#8, 2, .branch)]
  | .beq => [(.relative, 0xF0#8, 2, .branch)]
  | .bpl => [(.relative, 0x10#8, 2, .branch)]
  | .bmi => [(.relative, 0x30#8, 2, .branch)]
  | .bvc => [(.relative, 0x50#8, 2, .branch)]
  | .bvs => [(.relative, 0x70#8, 2, .branch)]
  | .jmp => [(.absolute, 0x4C#8, 3, .none), (.indirect, 0x6C#8, 5, .none)]
  | .jsr => [(.absolute, 0x20#8, 6, .none)]
  | .rts => [(.implied, 0x60#8, 6, .none)]
  | .rti => [(.implied, 0x40#8, 6, .none)]
  | .pha => [(.implied, 0x48#8, 3, .none)]
  | .php => [(.implied, 0x08#8, 3, .none)]
  | .pla => [(.implied, 0x68#8, 4, .none)]
  | .plp => [(.implied, 0x28#8, 4, .none)]
  | .sec => [(.implied, 0x38#8, 2, .none)]
  | .clc => [(.implied, 0x18#8, 2, .none)]
  | .sed => [(.implied, 0xF8#8, 2, .none)]
  | .cld => [(.implied, 0xD8#8, 2, .none)]
  | .sei => [(.implied, 0x78#8, 2, .none)]
  | .cli => [(.implied, 0x58#8, 2, .none)]
  | .clv => [(.implied, 0xB8#8, 2, .none)]
  | .tax => [(.implied, 0xAA#8, 2, .none)]
  | .txa => [(.implied, 0x8A#8, 2, .none)]
  | .tay => [(.implied, 0xA8#8, 2, .none)]
  | .tya => [(.implied, 0x98#8, 2, .none)]
  | .tsx => [(.implied, 0xBA#8, 2, .none)]
  | .txs => [(.implied, 0x9A#8, 2, .none)]
  | .nop => [(.implied, 0xEA#8, 2, .none)]
  | .brk => [(.implied, 0x00#8, 7, .none)]

/-- The row of its rule's table that an instruction's bytes follow. -/
def HasRow (i : Instr) (opcode : Byte) (base : Nat) (extra : ExtraCycles) : Prop :=
  (i.operand.mode, opcode, base, extra) ∈ ruleRows i.mnemonic ∧ encode i = opcode :: i.operand.bytes

/-- From `s` to `t`, `i` follows its row: the bytes, and the cost with the page-crossing cycle of 40_dispatch.md R127. -/
def FollowsRow (i : Instr) (s t : State) : Prop :=
  ∃ opcode base extra, HasRow i opcode base extra ∧
    (extra = .none → t.cyclesLast.toNat = base) ∧
    (∀ m, extra = .page → i.operand = .memory m →
      t.cyclesLast.toNat = base + if s.cfg.strictTiming = true ∧ pageCrossed m s = true then 1 else 0)

end Sys2Proof.Machine
end

