-- ==== Sys2Proof/Certificates/Slice0/Obligations.lean ====
section
/-! DEFINITION. The statements for the provers. Each docstring names the rule it formalises; the words `Completes`, `FollowsRow`, `RegsKept`, `StatusKept`, `MemKept`, `ControlKept` and `FlagsOf` are Safety.lean's. -/

open Sys2Proof Sys2Proof.Machine

/-! ## Encoding (30_encoding.md) -/

/-- R90–R96: decoding the bytes of any instruction, whatever follows them, gives that instruction and what follows. -/
def Obligations.DecodeOfEncode : Prop :=
  ∀ (i : Instr) (rest : List Byte), decode (encode i ++ rest) = .ok (i, rest)

/-- R90–R96: whatever decodes is the encoding of the instruction it decodes to, followed by what is left over. -/
def Obligations.EncodeOfDecode : Prop :=
  ∀ (bytes rest : List Byte) (i : Instr), decode bytes = .ok (i, rest) → bytes = encode i ++ rest

/-- R98: the bytes the decoder refuses as unimplemented, whatever follows them, are exactly the 105 bytes R98 lists. -/
def Obligations.UnimplementedExactlyTheListedBytes : Prop :=
  ∀ (op : Byte) (rest : List Byte), decode (op :: rest) = .error (.unimplementedOpcode op) ↔ op ∈ undefinedOpcodes

/-- R101's table, row by row: the bytes the spec writes for each addressing mode decode to the instruction it names, and the
assembler's text of that instruction is the example's (R101–R102; capital digits are the model's choice, log 17). -/
def Obligations.SpecWordsDecode : Prop :=
  (decode [0xAA#8] = .ok (.tax, []) ∧ decode [0x0A#8] = .ok (.aslAcc, []) ∧
    decode [0xA9#8, 0x05#8] = .ok (.ldaImm 0x05#8, []) ∧ decode [0xA5#8, 0x10#8] = .ok (.ldaZp 0x10#8, []) ∧
    decode [0xB5#8, 0x10#8] = .ok (.ldaZpx 0x10#8, []) ∧ decode [0xB6#8, 0x10#8] = .ok (.ldxZpy 0x10#8, []) ∧
    decode [0x20#8, 0x34#8, 0x12#8] = .ok (.jsrAbs 0x1234#16, []) ∧
    decode [0xBD#8, 0x34#8, 0x12#8] = .ok (.ldaAbx 0x1234#16, []) ∧
    decode [0xB9#8, 0x34#8, 0x12#8] = .ok (.ldaAby 0x1234#16, []) ∧
    decode [0x6C#8, 0x34#8, 0x12#8] = .ok (.jmpInd 0x1234#16, []) ∧
    decode [0xA1#8, 0x10#8] = .ok (.ldaIzx 0x10#8, []) ∧ decode [0xB1#8, 0x10#8] = .ok (.ldaIzy 0x10#8, []) ∧
    decode [0xF0#8, 0xFE#8] = .ok (.beq 0xFE#8, [])) ∧
  ([Instr.tax, .aslAcc, .ldaImm 0x05#8, .ldaZp 0x10#8, .ldaZpx 0x10#8, .ldxZpy 0x10#8, .jsrAbs 0x1234#16, .ldaAbx 0x1234#16,
      .ldaAby 0x1234#16, .jmpInd 0x1234#16, .ldaIzx 0x10#8, .ldaIzy 0x10#8, .beq 0xFE#8].map (Instr.text 0x0010#16) =
    ["TAX", "ASL A", "LDA #$05", "LDA $10", "LDA $10,X", "LDX $10,Y", "JSR $1234", "LDA $1234,X", "LDA $1234,Y", "JMP ($1234)",
      "LDA ($10,X)", "LDA ($10),Y", "BEQ $0010"])

/-- R90, R93: an instruction is the opcode byte and zero, one or two operand bytes, and the opcode byte alone decides
mnemonic, mode and length; decoding consumes exactly that length. -/
def Obligations.OpcodeDecidesModeAndLength : Prop :=
  ∀ (op : Byte) (r₁ r₂ t₁ t₂ : List Byte) (i₁ i₂ : Instr),
    decode (op :: r₁) = .ok (i₁, t₁) → decode (op :: r₂) = .ok (i₂, t₂) →
      i₁.mnemonic = i₂.mnemonic ∧ i₁.operand.mode = i₂.operand.mode ∧ i₁.length = i₂.length ∧
        (∃ operands, operands.length ≤ 2 ∧ i₁.length = operands.length + 1 ∧ op :: r₁ = op :: operands ++ t₁)

/-- R96, R100: a mnemonic and an operand make an instruction exactly when the mode is in the mnemonic's supported set. -/
def Obligations.SupportedPairsAreTheInstructions : Prop :=
  ∀ r : RawInstr, r.wellFormed = true ↔ ∃ i : Instr, i.raw = r

/-- R102: a relative operand is written as its target address. The assembler writes `rel8 = (target − (PC0 + 2)) mod 256`
for a target within −128 and 127 of PC0 + 2 on the 16-bit circle, and refuses every other target. The branch with that byte
goes to that target (46_branch.md R250). -/
def Obligations.RelativeOffsetReachesTarget : Prop :=
  ∀ (pc0 target : Word),
    let Reaches (d : Int) : Prop := -128 ≤ d ∧ d ≤ 127 ∧ (target.toNat : Int) = ((pc0.toNat : Int) + 2 + d) % 65536
    (∀ rel, relativeOffset pc0 target = some rel ↔ ∃ d, Reaches d ∧ (rel.toNat : Int) = d % 256) ∧
    (relativeOffset pc0 target = none ↔ ¬∃ d, Reaches d) ∧
    (∀ rel, relativeOffset pc0 target = some rel ↔ branchTarget pc0 rel = target) ∧
    (∀ (i : Instr) (rel : Byte), i.operand = .relative rel → i.text pc0 = i.mnemonic.text ++ " " ++ hexWord (branchTarget pc0 rel))

/-! ## The step cycle and faults (40_dispatch.md, 60_exceptions.md) -/

/-- R120–R125: in `Ready`, when the bytes at PC decode to an instruction, the step is `exec` of it, from the state that has
the opcode byte in `last_opcode`. -/
def Obligations.StepRunsTheDecodedInstruction : Prop :=
  ∀ (s : State) (i : Instr) (rest : List Byte), s.runState = .ready →
    decode [s.readByte s.pc, s.readByte (s.pc + 1#16), s.readByte (s.pc + 2#16)] = .ok (i, rest) →
      step s = exec i { s with lastOpcode := some (s.readByte s.pc) }

/-- R341, R342: a step in `Ready` raises UnimplementedOpcode exactly for the 105 bytes of R98. It then stores the record
(UnimplementedOpcode, opcode, PC0), halts the run, keeps A, X, Y, S, P, PC, memory and `cycles_last`, leaves the byte in
`last_opcode`, and returns the fault instead of a cycle count. -/
def Obligations.UnimplementedOpcodeHalts : Prop :=
  ∀ s : State, s.runState = .ready →
    let opcode := s.readByte s.pc
    let record : FaultRecord := ⟨.unimplementedOpcode, opcode, s.pc⟩
    (opcode ∈ undefinedOpcodes → hostStep s =
      ({ s with lastOpcode := some opcode, fault := some record, runState := .halted }, .fault (.halted (some record)))) ∧
    (opcode ∉ undefinedOpcodes → ∃ t n, hostStep s = (t, .cycles n))

/-- R345: `step()` in `Uninitialized` returns NotInitialized and changes nothing. R346, R374: in `Halted` every step returns
the stored record and changes nothing, however many there are, and `initialize` is refused. -/
def Obligations.NoStepOutsideReady : Prop :=
  (∀ s : State, s.runState = .uninitialized → hostStep s = (s, .fault .notInitialized)) ∧
  (∀ (s : State) (n : Nat), s.runState = .halted →
    ((fun u => (hostStep u).1)^[n] s) = s ∧ hostStep s = (s, .fault (.halted s.fault)) ∧
      initializeCore s = .refused .alreadyInitialized)

/-- R347: from every `Ready` state whose byte at PC has a table entry, the step completes: still `Ready`, no fault recorded
that was not there, the byte in `last_opcode`, and the host gets the cycle cost. -/
def Obligations.DefinedOpcodesComplete : Prop :=
  ∀ s : State, s.runState = .ready → s.readByte s.pc ∉ undefinedOpcodes →
    ∃ t, step s = .next t ∧ t.runState = .ready ∧ t.fault = s.fault ∧ t.cfg = s.cfg ∧
      t.lastOpcode = some (s.readByte s.pc) ∧ hostStep s = (t, .cycles t.cyclesLast)

/-- R126, R127, R382, R383: the cost of every completed instruction, by its mark in the table. The base cost is within 2 to 7.
With no mark it is the cost; a `p` opcode costs one more under STRICT_TIMING when its indexing crosses a page; a branch costs
one more when taken, and one more again under STRICT_TIMING when its target is on another page. Every branch has the mark `b`. -/
def Obligations.CycleCostFollowsTheTable : Prop :=
  ∀ (i : Instr) (s t : State), exec i s = .next t →
    (2 ≤ i.baseCycles ∧ i.baseCycles ≤ 7) ∧
    (i.extraCycles = .none → t.cyclesLast.toNat = i.baseCycles) ∧
    (∀ m, i.extraCycles = .page → i.operand = .memory m →
      t.cyclesLast.toNat = i.baseCycles + if s.cfg.strictTiming = true ∧ pageCrossed m s = true then 1 else 0) ∧
    (i.extraCycles = .branch ↔ branchCondition i.mnemonic ≠ none) ∧
    (∀ f wanted rel, branchCondition i.mnemonic = some (f, wanted) → i.operand = .relative rel →
      t.cyclesLast.toNat = i.baseCycles +
        if s.flag f = wanted then
          1 + if s.cfg.strictTiming = true ∧
            (branchTarget s.pc rel).toNat / 256 ≠ (s.pc.toNat + 2) % 65536 / 256 then 1 else 0
        else 0)

/-- R127: the opcodes that take the page-crossing cycle are the reads ADC, AND, CMP, EOR, LDA, LDX, LDY, ORA, SBC in
Absolute_Indexed_X, Absolute_Indexed_Y or Indirect_Indexed mode. -/
def Obligations.PagePenaltyOpcodes : Prop :=
  ∀ i : Instr, i.extraCycles = .page ↔
    i.mnemonic ∈ [Mnemonic.adc, .and, .cmp, .eor, .lda, .ldx, .ldy, .ora, .sbc] ∧
      i.operand.mode ∈ [Mode.absoluteX, .absoluteY, .indirectIndexed]

/-- R129, row by row: where every instruction leaves PC. -/
def Obligations.PcAfterEveryInstruction : Prop :=
  ∀ (i : Instr) (s : State), s.mem.wf = true →
    let pulled (k : Nat) : Nat := (s.readByte (0x0100#16 ||| (s.s + BitVec.ofNat 8 k).setWidth 16)).toNat
    Completes i s fun t =>
      (branchCondition i.mnemonic = none → i.mnemonic ∉ [Mnemonic.jmp, .jsr, .rts, .rti, .brk] →
        t.pc.toNat = (s.pc.toNat + i.length) % 65536 ∧ i.length ∈ [1, 2, 3]) ∧
      (∀ f wanted rel, branchCondition i.mnemonic = some (f, wanted) → i.operand = .relative rel →
        (s.flag f ≠ wanted → t.pc.toNat = (s.pc.toNat + 2) % 65536) ∧
        (s.flag f = wanted → (t.pc.toNat : Int) = ((s.pc.toNat : Int) + 2 + rel.toInt) % 65536)) ∧
      (∀ m, i.mnemonic ∈ [Mnemonic.jmp, .jsr] → i.operand = .memory m → t.pc = effectiveAddress m s) ∧
      (i.mnemonic = .rts → t.pc.toNat = (pulled 1 + 256 * pulled 2 + 1) % 65536) ∧
      (i.mnemonic = .rti → t.pc.toNat = pulled 2 + 256 * pulled 3) ∧
      (i.mnemonic = .brk → t.pc.toNat = (s.readByte 0xFFFE#16).toNat + 256 * (s.readByte 0xFFFF#16).toNat)

/-- R382: the cycle count and STRICT_TIMING are timing only. Two states that differ in `cycles_last` and the parameter
alone step to states that differ in them alone, with costs at most one apart where an instruction completed. -/
def Obligations.TimingInfluencesNothingElse : Prop :=
  ∀ (s t : State) (n : Byte) (c : Config), step s = .next t →
    ∃ u, step { s with cyclesLast := n, cfg := c } = .next u ∧
      u = { t with cyclesLast := u.cyclesLast, cfg := c } ∧
      (t.runState = .ready → u.cyclesLast.toNat ≤ t.cyclesLast.toNat + 1)

/-! ## Invariants -/

/-- R49 with R43, R46, R341 and R383's bound: every step keeps the invariants. -/
def Obligations.StepKeepsInvariants : Prop :=
  ∀ s t : State, Inv s → step s = .next t → Inv t

/-- R49: every state the host can bring about satisfies the invariants. -/
def Obligations.ReachableStatesKeepInvariants : Prop := ∀ s : State, Reachable s → Inv s

/-- The state after reset satisfies the invariants. Its register and memory values are the model's choices (logs 1, 2, 4). -/
def Obligations.ResetSatisfiesInvariants : Prop := Inv State.reset

/-- R370, R47: State.reset is what `construct` of an empty image at the model's parameters (logs 1 to 5) and then `initialize`
give, with R47's control state: Ready, no opcode fetched, cost 0, no fault, PC the word at the reset vector. -/
def Obligations.ResetIsConstructThenInitialize : Prop :=
  (∃ u, construct {} {} [] = .next u ∧ initializeCore u = .next State.reset) ∧
  State.reset.runState = .ready ∧ State.reset.lastOpcode = none ∧ State.reset.cyclesLast = 0#8 ∧
    State.reset.fault = none ∧ State.reset.pc = State.reset.readWord 0xFFFC#16

/-! ## Memory (20_memory.md) -/

/-- R62: a byte written at any address reads back there, every other address keeps its byte, and nothing but memory
changes. The write keeps the canonical form. -/
def Obligations.ReadAfterWrite : Prop :=
  ∀ (s : State) (a b : Word) (v : Byte), s.mem.wf = true →
    (s.writeByte a v).readByte b = (if b = a then v else s.readByte b) ∧ (s.writeByte a v).mem.wf = true ∧
      RegsKept [] s (s.writeByte a v) ∧ StatusKept [] s (s.writeByte a v) ∧ ControlKept s (s.writeByte a v) ∧
      (s.writeByte a v).pc = s.pc ∧ (s.writeByte a v).cyclesLast = s.cyclesLast

/-- R60: every content of the 65536 bytes is a memory, and two memories in canonical form that read alike are equal. -/
def Obligations.MemoriesAreTheirContents : Prop :=
  (∀ f : Word → Byte, ∃ m : Memory, m.wf = true ∧ ∀ a : Word, m.read a.toNat = f a) ∧
  (∀ m₁ m₂ : Memory, m₁.wf = true → m₂.wf = true → (∀ a : Word, m₁.read a.toNat = m₂.read a.toNat) → m₁ = m₂)

/-- R68: whatever S holds, PHA, PHP, JSR and BRK change no byte outside the stack page. -/
def Obligations.PushesStayInTheStackPage : Prop :=
  ∀ (i : Instr) (s : State), i.mnemonic ∈ [Mnemonic.pha, .php, .jsr, .brk] →
    Completes i s fun t => ∀ a : Word, a.toNat / 256 ≠ 1 → t.readByte a = s.readByte a

/-- R77: whatever an instruction stores, the fetch of the next instruction sees. For each instruction that writes memory
(the stores, the read-modify-writes, the pushes): a byte it stored at any of the three addresses from the new PC upward is what
the next fetch reads there. -/
def Obligations.StoreSeenByNextFetch : Prop :=
  ∀ (i : Instr) (s : State), s.mem.wf = true →
    let next := s.pc + BitVec.ofNat 16 i.length
    let ret := s.pc + 2#16
    let vector := s.readWord 0xFFFE#16
    let a₀ := 0x0100#16 ||| s.s.setWidth 16
    let a₁ := 0x0100#16 ||| (s.s - 1#8).setWidth 16
    let a₂ := 0x0100#16 ||| (s.s - 2#8).setWidth 16
    let Fetches (t : State) (a : Word) (n : Nat) : Prop :=
      ∀ k, k < 3 → t.pc + BitVec.ofNat 16 k = a → ((fetchBytes t)[k]?).map BitVec.toNat = some n
    (∀ r m, (i.mnemonic, r) ∈ [(Mnemonic.sta, Reg8.a), (.stx, .x), (.sty, .y)] → i.operand = .memory m →
      Completes i s fun t => t.pc = next ∧ Fetches t (effectiveAddress m s) (s.reg r).toNat) ∧
    (∀ m n, i.operand = .memory m →
      (i.mnemonic, n) ∈ modifiedByte (s.readByte (effectiveAddress m s)).toNat (s.flag .c).toNat →
      Completes i s fun t => t.pc = next ∧ Fetches t (effectiveAddress m s) n) ∧
    (∀ v, (i, v) ∈ [(Instr.pha, s.a), (.php, s.p ||| 0x30#8)] →
      Completes i s fun t => t.pc = next ∧ Fetches t a₀ v.toNat) ∧
    (∀ target, i = .jsrAbs target →
      Completes i s fun t => t.pc = target ∧ Fetches t a₀ (hiByte ret).toNat ∧ Fetches t a₁ (loByte ret).toNat) ∧
    (i = .brk → Completes i s fun t => t.pc = vector ∧
      Fetches t a₀ (hiByte ret).toNat ∧ Fetches t a₁ (loByte ret).toNat ∧ Fetches t a₂ (s.p ||| 0x30#8).toNat)

/-- R124, R381: an instruction uses its own bytes, its pointers and its operand as they were before its own writes, for every
instruction that writes memory, wherever the bytes at PC, the pointer and the write lie. A JSR goes to the target its bytes
give even where its pushes overwrite them. A store or a read-modify-write, in every mode, stores where the bytes at PC and the
pointer said before the step, what the register, or the byte there before, gives, and goes on past its length. PHA, PHP and BRK
run as the opcode byte said even where they push over it. -/
def Obligations.InstructionsUseTheirOldBytes : Prop :=
  ∀ s : State, s.runState = .ready → s.mem.wf = true →
    let lo := s.readByte (s.pc + 1#16)
    let hi := s.readByte (s.pc + 2#16)
    let Stores (t : State) (a : Word) (n : Nat) : Prop :=
      ∀ b : Word, (t.readByte b).toNat = if b = a then n else (s.readByte b).toNat
    (s.readByte s.pc = 0x20#8 → ∃ t, step s = .next t ∧ t.pc.toNat = lo.toNat + 256 * hi.toNat) ∧
    (s.readByte s.pc = 0x8D#8 → ∃ t, step s = .next t ∧
      ∀ a : Word, t.readByte a = if a.toNat = lo.toNat + 256 * hi.toNat then s.a else s.readByte a) ∧
    (∀ i rest m, decode [s.readByte s.pc, lo, hi] = .ok (i, rest) → i.operand = .memory m →
      (∀ r, (i.mnemonic, r) ∈ [(Mnemonic.sta, Reg8.a), (.stx, .x), (.sty, .y)] → ∃ t, step s = .next t ∧
        t.pc = s.pc + BitVec.ofNat 16 i.length ∧ Stores t (effectiveAddress m s) (s.reg r).toNat) ∧
      (∀ n, (i.mnemonic, n) ∈ modifiedByte (s.readByte (effectiveAddress m s)).toNat (s.flag .c).toNat →
        ∃ t, step s = .next t ∧
          t.pc = s.pc + BitVec.ofNat 16 i.length ∧ Stores t (effectiveAddress m s) n)) ∧
    (∀ v, (s.readByte s.pc, v) ∈ [(0x48#8, s.a), (0x08#8, s.p ||| 0x30#8)] → ∃ t, step s = .next t ∧
      t.pc = s.pc + 1#16 ∧ Stores t (0x0100#16 ||| s.s.setWidth 16) v.toNat) ∧
    (s.readByte s.pc = 0x00#8 → ∃ t, step s = .next t ∧
      t.pc.toNat = (s.readByte 0xFFFE#16).toNat + 256 * (s.readByte 0xFFFF#16).toNat ∧ t.s = s.s - 3#8)

/-! ## Addressing (41_addressing.md) -/

/-- R145–R149: the length and the effective address of each mode that computes it from PC, the operand field and an index
register. -/
def Obligations.DirectEffectiveAddresses : Prop :=
  ∀ (s : State) (b : Byte) (w : Word),
    let Is (m : MemOperand) (length ea : Nat) : Prop := m.mode.length = length ∧ (effectiveAddress m s).toNat = ea
    Is (.immediate b) 2 ((s.pc.toNat + 1) % 65536) ∧
    Is (.zeroPage b) 2 b.toNat ∧
    Is (.zeroPageX b) 2 ((b.toNat + s.x.toNat) % 256) ∧
    Is (.zeroPageY b) 2 ((b.toNat + s.y.toNat) % 256) ∧
    Is (.absolute w) 3 w.toNat ∧
    Is (.absoluteX w) 3 ((w.toNat + s.x.toNat) % 65536) ∧
    Is (.absoluteY w) 3 ((w.toNat + s.y.toNat) % 65536)

/-- R150–R152, R64–R65: the length and the effective address of the pointer modes; the second pointer byte is at the 16-bit
successor for Indirect and at the zero-page successor for the other two. -/
def Obligations.PointerEffectiveAddresses : Prop :=
  ∀ (s : State) (zp : Byte) (ptr : Word),
    let byteAt (a : Nat) : Nat := (s.mem.read a).toNat
    let Is (m : MemOperand) (length ea : Nat) : Prop := m.mode.length = length ∧ (effectiveAddress m s).toNat = ea
    Is (.indirect ptr) 3 (byteAt ptr.toNat + 256 * byteAt ((ptr.toNat + 1) % 65536)) ∧
    Is (.indexedIndirect zp) 2
      (byteAt ((zp.toNat + s.x.toNat) % 256) + 256 * byteAt ((zp.toNat + s.x.toNat + 1) % 256)) ∧
    Is (.indirectIndexed zp) 2 ((byteAt zp.toNat + 256 * byteAt ((zp.toNat + 1) % 256) + s.y.toNat) % 65536)

/-- R141, R145, R155: the operand byte of the instruction fetched at PC is the byte at its effective address, in every mode. -/
def Obligations.OperandIsTheByteAtTheEffectiveAddress : Prop :=
  ∀ (s : State) (i : Instr) (m : MemOperand) (rest : List Byte),
    decode [s.readByte s.pc, s.readByte (s.pc + 1#16), s.readByte (s.pc + 2#16)] = .ok (i, rest) →
      i.operand = .memory m → operandByte m s = s.readByte (effectiveAddress m s)

/-- R154: a page is crossed when the high bytes of the un-indexed address and the effective address differ. -/
def Obligations.PageCrossingComparesHighBytes : Prop :=
  ∀ (s : State) (zp : Byte) (w : Word),
    (pageCrossed (.absoluteX w) s = true ↔ w.toNat / 256 ≠ (w.toNat + s.x.toNat) % 65536 / 256) ∧
    (pageCrossed (.absoluteY w) s = true ↔ w.toNat / 256 ≠ (w.toNat + s.y.toNat) % 65536 / 256) ∧
    (pageCrossed (.indirectIndexed zp) s = true ↔
      (s.readWordZp zp).toNat / 256 ≠ ((s.readWordZp zp).toNat + s.y.toNat) % 65536 / 256)

/-! ## Loads and stores (42_load_store.md) -/

/-- R170–R172: LDA, LDX, LDY in every mode: the operand byte into the register, N and Z from it, nothing else. -/
def Obligations.LoadResult : Prop :=
  ∀ (i : Instr) (r : Reg8) (m : MemOperand) (s : State),
    (i.mnemonic, r) ∈ [(Mnemonic.lda, Reg8.a), (.ldx, .x), (.ldy, .y)] → i.operand = .memory m →
      Completes i s fun t =>
        t.reg r = operandByte m s ∧ FlagsOf (operandByte m s) t ∧ t.pc = s.pc + BitVec.ofNat 16 i.length ∧
        RegsKept [r] s t ∧ StatusKept [.n, .z] s t ∧ MemKept [] s t ∧ ControlKept s t ∧ FollowsRow i s t

/-- R173–R175: STA, STX, STY in every mode: the register to the effective address, no flag, nothing else. -/
def Obligations.StoreResult : Prop :=
  ∀ (i : Instr) (r : Reg8) (m : MemOperand) (s : State),
    (i.mnemonic, r) ∈ [(Mnemonic.sta, Reg8.a), (.stx, .x), (.sty, .y)] → i.operand = .memory m → s.mem.wf = true →
      Completes i s fun t =>
        t.readByte (effectiveAddress m s) = s.reg r ∧ MemKept [effectiveAddress m s] s t ∧
        t.pc = s.pc + BitVec.ofNat 16 i.length ∧ RegsKept [] s t ∧ StatusKept [] s t ∧ ControlKept s t ∧ FollowsRow i s t

/-! ## Arithmetic and logic (43_arith_logic.md) -/

/-- R190: ADC in every mode: the sum of A, M and C modulo 256, C the ninth bit, V the exclusive-or test, N and Z from the
result, nothing else. -/
def Obligations.AdcResult : Prop :=
  ∀ (i : Instr) (m : MemOperand) (s : State), i.mnemonic = .adc → i.operand = .memory m →
    let M := operandByte m s
    let sum := s.a.toNat + M.toNat + (s.flag .c).toNat
    Completes i s fun t =>
      t.a.toNat = sum % 256 ∧ t.flag .c = decide (256 ≤ sum) ∧
      t.flag .v = decide (~~~(s.a ^^^ M) &&& (s.a ^^^ t.a) &&& 0x80#8 ≠ 0#8) ∧ FlagsOf t.a t ∧
      t.pc = s.pc + BitVec.ofNat 16 i.length ∧
      RegsKept [.a] s t ∧ StatusKept [.n, .v, .z, .c] s t ∧ MemKept [] s t ∧ ControlKept s t ∧ FollowsRow i s t

/-- R191: SBC in every mode: A − M − (1 − C) modulo 256, C = no borrow, V the signed-overflow test, N and Z from the result,
nothing else. -/
def Obligations.SbcResult : Prop :=
  ∀ (i : Instr) (m : MemOperand) (s : State), i.mnemonic = .sbc → i.operand = .memory m →
    let M := operandByte m s
    let diff : Int := (s.a.toNat : Int) - (M.toNat : Int) - (1 - ((s.flag .c).toNat : Int))
    Completes i s fun t =>
      (t.a.toNat : Int) = diff % 256 ∧ t.flag .c = decide (0 ≤ diff) ∧
      t.flag .v = decide ((s.a ^^^ M) &&& (s.a ^^^ t.a) &&& 0x80#8 ≠ 0#8) ∧ FlagsOf t.a t ∧
      t.pc = s.pc + BitVec.ofNat 16 i.length ∧
      RegsKept [.a] s t ∧ StatusKept [.n, .v, .z, .c] s t ∧ MemKept [] s t ∧ ControlKept s t ∧ FollowsRow i s t

/-- R196 and the glossary's signed overflow: V after ADC and after SBC says exactly that the exact two's-complement sum or
difference lies outside −128..127. -/
def Obligations.OverflowIsSignedOverflow : Prop :=
  ∀ (i : Instr) (m : MemOperand) (s : State), i.operand = .memory m →
    (i.mnemonic = .adc → Completes i s fun t =>
      let exact : Int := s.a.toInt + (operandByte m s).toInt + ((s.flag .c).toNat : Int)
      (t.flag .v = true ↔ exact < -128 ∨ 127 < exact)) ∧
    (i.mnemonic = .sbc → Completes i s fun t =>
      let exact : Int := s.a.toInt - (operandByte m s).toInt - (1 - ((s.flag .c).toNat : Int))
      (t.flag .v = true ↔ exact < -128 ∨ 127 < exact))

/-- R198: SBC with operand M gives the A and the flags that ADC with operand ~M gives from the same state. -/
def Obligations.SbcIsAdcOfComplement : Prop :=
  ∀ (i : Instr) (m : MemOperand) (s : State), i.mnemonic = .sbc → i.operand = .memory m →
    Completes i s fun t => Completes (.adcImm (~~~operandByte m s)) s fun u => t.a = u.a ∧ t.p = u.p

/-- Derived from R33, R34, R197 and R348: D and I decide nothing. From two states that differ in one of them alone, every instruction but PHP and
BRK, which push P, ends in states that agree on every register, on memory, on the cost, and on every other flag. -/
def Obligations.DecimalAndInterruptFlagsInert : Prop :=
  ∀ (i : Instr) (s : State) (f : Flag) (b : Bool), f ∈ [Flag.d, .i] → i.mnemonic ∉ [Mnemonic.php, .brk] →
    Completes i s fun t => Completes i (s.setFlag f b) fun u =>
      RegsKept [] t u ∧ u.pc = t.pc ∧ u.mem = t.mem ∧ u.cyclesLast = t.cyclesLast ∧ StatusKept [f] t u

/-- R192–R194: AND, ORA, EOR in every mode: bitwise on A and the operand, N and Z from the result, nothing else. -/
def Obligations.LogicResult : Prop :=
  ∀ (i : Instr) (m : MemOperand) (s : State), i.mnemonic ∈ [Mnemonic.and, .ora, .eor] → i.operand = .memory m →
    Completes i s fun t =>
      (∀ k, k < 8 →
        (i.mnemonic = .and → t.a.getLsbD k = (s.a.getLsbD k && (operandByte m s).getLsbD k)) ∧
        (i.mnemonic = .ora → t.a.getLsbD k = (s.a.getLsbD k || (operandByte m s).getLsbD k)) ∧
        (i.mnemonic = .eor → t.a.getLsbD k = (s.a.getLsbD k ^^ (operandByte m s).getLsbD k))) ∧
      FlagsOf t.a t ∧ t.pc = s.pc + BitVec.ofNat 16 i.length ∧
      RegsKept [.a] s t ∧ StatusKept [.n, .z] s t ∧ MemKept [] s t ∧ ControlKept s t ∧ FollowsRow i s t

/-- R195: BIT in both modes: Z from A & M, N and V from bits 7 and 6 of M, nothing else; A is not written. -/
def Obligations.BitResult : Prop :=
  ∀ (i : Instr) (m : MemOperand) (s : State), i.mnemonic = .bit → i.operand = .memory m →
    Completes i s fun t =>
      t.flag .z = decide (s.a &&& operandByte m s = 0#8) ∧ t.flag .n = (operandByte m s).getLsbD 7 ∧
      t.flag .v = (operandByte m s).getLsbD 6 ∧ t.pc = s.pc + BitVec.ofNat 16 i.length ∧
      RegsKept [] s t ∧ StatusKept [.n, .v, .z] s t ∧ MemKept [] s t ∧ ControlKept s t ∧ FollowsRow i s t

/-! ## Shifts and rotates (44_shift_rotate.md) -/

/-- R210–R213: ASL, LSR, ROL, ROR, on the accumulator and on memory in every mode: the result, C the bit shifted out, N and Z
from the result, written back where the byte came from, nothing else. -/
def Obligations.ShiftResult : Prop :=
  ∀ (i : Instr) (s : State), i.mnemonic ∈ [Mnemonic.asl, .lsr, .rol, .ror] →
    let c := (s.flag .c).toNat
    let Shifted (v r : Byte) (carry : Bool) : Prop :=
      (i.mnemonic = .asl → r.toNat = v.toNat * 2 % 256 ∧ carry = v.getLsbD 7) ∧
      (i.mnemonic = .lsr → r.toNat = v.toNat / 2 ∧ carry = v.getLsbD 0) ∧
      (i.mnemonic = .rol → r.toNat = (v.toNat * 2 + c) % 256 ∧ carry = v.getLsbD 7) ∧
      (i.mnemonic = .ror → r.toNat = v.toNat / 2 + 128 * c ∧ carry = v.getLsbD 0)
    (i.operand = .accumulator → Completes i s fun t =>
      Shifted s.a t.a (t.flag .c) ∧ FlagsOf t.a t ∧ t.pc = s.pc + 1#16 ∧
      RegsKept [.a] s t ∧ StatusKept [.n, .z, .c] s t ∧ MemKept [] s t ∧ ControlKept s t ∧ FollowsRow i s t) ∧
    (∀ m, i.operand = .memory m → s.mem.wf = true → Completes i s fun t =>
      let ea := effectiveAddress m s
      Shifted (s.readByte ea) (t.readByte ea) (t.flag .c) ∧ FlagsOf (t.readByte ea) t ∧
      t.pc = s.pc + BitVec.ofNat 16 i.length ∧
      RegsKept [] s t ∧ StatusKept [.n, .z, .c] s t ∧ MemKept [ea] s t ∧ ControlKept s t ∧ FollowsRow i s t)

/-! ## Compares, increments and decrements (45_compare_incdec.md) -/

/-- R230–R232: CMP, CPX, CPY in every mode: C = no borrow, N and Z from the difference modulo 256, nothing else. -/
def Obligations.CompareResult : Prop :=
  ∀ (i : Instr) (r : Reg8) (m : MemOperand) (s : State),
    (i.mnemonic, r) ∈ [(Mnemonic.cmp, Reg8.a), (.cpx, .x), (.cpy, .y)] → i.operand = .memory m →
    let M := operandByte m s
    Completes i s fun t =>
      t.flag .c = decide (M.toNat ≤ (s.reg r).toNat) ∧ t.flag .z = decide (s.reg r = M) ∧
      t.flag .n = decide (128 ≤ ((s.reg r).toNat + (256 - M.toNat)) % 256) ∧
      t.pc = s.pc + BitVec.ofNat 16 i.length ∧
      RegsKept [] s t ∧ StatusKept [.n, .z, .c] s t ∧ MemKept [] s t ∧ ControlKept s t ∧ FollowsRow i s t

/-- R233–R234: INC and DEC in every mode: the byte at the effective address plus or minus one modulo 256, N and Z from it,
no carry, nothing else. -/
def Obligations.IncDecMemoryResult : Prop :=
  ∀ (i : Instr) (m : MemOperand) (s : State), i.mnemonic ∈ [Mnemonic.inc, .dec] → i.operand = .memory m →
    s.mem.wf = true →
    let v := s.readByte (effectiveAddress m s)
    Completes i s fun t =>
      let r := t.readByte (effectiveAddress m s)
      (i.mnemonic = .inc → r.toNat = (v.toNat + 1) % 256) ∧ (i.mnemonic = .dec → r.toNat = (v.toNat + 255) % 256) ∧
      FlagsOf r t ∧ t.pc = s.pc + BitVec.ofNat 16 i.length ∧
      RegsKept [] s t ∧ StatusKept [.n, .z] s t ∧ MemKept [effectiveAddress m s] s t ∧ ControlKept s t ∧ FollowsRow i s t

/-- R235–R238: INX, INY, DEX, DEY: the register plus or minus one modulo 256, N and Z from it, nothing else. -/
def Obligations.IncDecRegisterResult : Prop :=
  ∀ (i : Instr) (r : Reg8) (k : Nat) (s : State),
    (i, r, k) ∈ [(Instr.inx, Reg8.x, 1), (.iny, .y, 1), (.dex, .x, 255), (.dey, .y, 255)] →
    Completes i s fun t =>
      (t.reg r).toNat = ((s.reg r).toNat + k) % 256 ∧ FlagsOf (t.reg r) t ∧ t.pc = s.pc + 1#16 ∧
      RegsKept [r] s t ∧ StatusKept [.n, .z] s t ∧ MemKept [] s t ∧ ControlKept s t ∧ FollowsRow i s t

/-! ## Branches (46_branch.md) -/

/-- R250–R258: every branch, taken or not: PC, the cost with its extra cycles, and nothing else. The offset is the signed
byte, counted from the address after the two bytes, modulo 65536. -/
def Obligations.BranchResult : Prop :=
  ∀ (i : Instr) (rel : Byte) (f : Flag) (wanted : Bool) (s : State),
    branchCondition i.mnemonic = some (f, wanted) → i.operand = .relative rel →
    let next : Int := ((s.pc.toNat : Int) + 2) % 65536
    let target : Int := (next + rel.toInt) % 65536
    Completes i s fun t =>
      (s.flag f = wanted → (t.pc.toNat : Int) = target ∧
        t.cyclesLast.toNat = 3 + if s.cfg.strictTiming = true ∧ target / 256 ≠ next / 256 then 1 else 0) ∧
      (s.flag f ≠ wanted → (t.pc.toNat : Int) = next ∧ t.cyclesLast.toNat = 2) ∧
      (∃ opcode, HasRow i opcode 2 .branch) ∧
      RegsKept [] s t ∧ StatusKept [] s t ∧ MemKept [] s t ∧ ControlKept s t

/-! ## Jumps and returns (47_jump_subroutine.md) -/

/-- R270: JMP in both modes: PC is the effective address, nothing else changes. -/
def Obligations.JmpResult : Prop :=
  ∀ (i : Instr) (m : MemOperand) (s : State), i.mnemonic = .jmp → i.operand = .memory m →
    Completes i s fun t =>
      t.pc = effectiveAddress m s ∧ RegsKept [] s t ∧ StatusKept [] s t ∧ MemKept [] s t ∧ ControlKept s t ∧ FollowsRow i s t

/-- R271, R66, R69: JSR pushes PC0 + 2, high byte first, and goes to its target; S drops by two; nothing else changes. -/
def Obligations.JsrResult : Prop :=
  ∀ (target : Word) (s : State), s.mem.wf = true →
    let ret := s.pc + 2#16
    Completes (.jsrAbs target) s fun t =>
      t.readByte (0x0100#16 ||| s.s.setWidth 16) = hiByte ret ∧
      t.readByte (0x0100#16 ||| (s.s - 1#8).setWidth 16) = loByte ret ∧
      t.s = s.s - 2#8 ∧ t.pc = target ∧ RegsKept [.s] s t ∧ StatusKept [] s t ∧
      MemKept [0x0100#16 ||| s.s.setWidth 16, 0x0100#16 ||| (s.s - 1#8).setWidth 16] s t ∧ ControlKept s t ∧
      FollowsRow (.jsrAbs target) s t

/-- R272, R67: RTS pulls low byte, then high byte, and goes to that word plus one; S rises by two; nothing else changes. -/
def Obligations.RtsResult : Prop :=
  ∀ s : State,
    let lo := s.readByte (0x0100#16 ||| (s.s + 1#8).setWidth 16)
    let hi := s.readByte (0x0100#16 ||| (s.s + 2#8).setWidth 16)
    Completes .rts s fun t =>
      t.pc.toNat = (hi.toNat * 256 + lo.toNat + 1) % 65536 ∧ t.s = s.s + 2#8 ∧
      RegsKept [.s] s t ∧ StatusKept [] s t ∧ MemKept [] s t ∧ ControlKept s t ∧ FollowsRow .rts s t

/-- R273, R39, R350: RTI pulls P, with bit 5 forced to 1 and bit 4 dropped, then PC with no plus one; S rises by three;
nothing else changes. -/
def Obligations.RtiResult : Prop :=
  ∀ s : State,
    let b := s.readByte (0x0100#16 ||| (s.s + 1#8).setWidth 16)
    let lo := s.readByte (0x0100#16 ||| (s.s + 2#8).setWidth 16)
    let hi := s.readByte (0x0100#16 ||| (s.s + 3#8).setWidth 16)
    Completes .rti s fun t =>
      t.p = (b ||| 0x20#8) &&& ~~~0x10#8 ∧ t.pc.toNat = hi.toNat * 256 + lo.toNat ∧ t.s = s.s + 3#8 ∧
      RegsKept [.s] s t ∧ MemKept [] s t ∧ ControlKept s t ∧ FollowsRow .rti s t

/-- R271–R272: JSR, then RTS from the state it leaves, comes back past the JSR with S as it was. -/
def Obligations.RtsReturnsPastJsr : Prop :=
  ∀ (target : Word) (s : State), s.mem.wf = true →
    Completes (.jsrAbs target) s fun t => Completes .rts t fun u => u.pc = s.pc + 3#16 ∧ u.s = s.s

/-! ## Stack, trap entry and return (48_stack.md, 49_flags_transfer_misc.md, 60_exceptions.md) -/

/-- R290–R291, R40, R66: PHA pushes A and PHP pushes P with bits 5 and 4 set; S drops by one; nothing else changes. -/
def Obligations.PushResult : Prop :=
  ∀ (i : Instr) (v : Byte) (s : State), (i, v) ∈ [(Instr.pha, s.a), (.php, s.p ||| 0x30#8)] → s.mem.wf = true →
    Completes i s fun t =>
      t.readByte (0x0100#16 ||| s.s.setWidth 16) = v ∧ t.s = s.s - 1#8 ∧ t.pc = s.pc + 1#16 ∧
      RegsKept [.s] s t ∧ StatusKept [] s t ∧ MemKept [0x0100#16 ||| s.s.setWidth 16] s t ∧ ControlKept s t ∧ FollowsRow i s t

/-- R292, R67: PLA pulls into A, N and Z from the byte; S rises by one; nothing else changes. -/
def Obligations.PlaResult : Prop :=
  ∀ s : State,
    let b := s.readByte (0x0100#16 ||| (s.s + 1#8).setWidth 16)
    Completes .pla s fun t =>
      t.a = b ∧ FlagsOf b t ∧ t.s = s.s + 1#8 ∧ t.pc = s.pc + 1#16 ∧
      RegsKept [.a, .s] s t ∧ StatusKept [.n, .z] s t ∧ MemKept [] s t ∧ ControlKept s t ∧ FollowsRow .pla s t

/-- R293, R39: PLP pulls into P with bit 5 forced to 1 and bit 4 dropped, every other bit the pulled byte's; S rises by one;
nothing else changes. -/
def Obligations.PlpResult : Prop :=
  ∀ s : State,
    let b := s.readByte (0x0100#16 ||| (s.s + 1#8).setWidth 16)
    Completes .plp s fun t =>
      t.p.getLsbD 5 = true ∧ t.p.getLsbD 4 = false ∧ (∀ k, k < 8 → k ≠ 5 → k ≠ 4 → t.p.getLsbD k = b.getLsbD k) ∧
      t.s = s.s + 1#8 ∧ t.pc = s.pc + 1#16 ∧ RegsKept [.s] s t ∧ MemKept [] s t ∧ ControlKept s t ∧ FollowsRow .plp s t

/-- R293: PHP, then PLP from the state it leaves, restores P and S in every state that satisfies the invariants. -/
def Obligations.PlpUndoesPhp : Prop :=
  ∀ s : State, Inv s → Completes .php s fun t => Completes .plp t fun u => u.p = s.p ∧ u.s = s.s

/-- R325, R349: BRK pushes PC0 + 2, high byte first, then P with bits 5 and 4 set and I as it was before; it sets I, takes
PC from the BRK vector, drops S by three, and changes nothing else; I does not mask it. -/
def Obligations.BrkResult : Prop :=
  ∀ s : State, s.mem.wf = true →
    let ret := s.pc + 2#16
    let a₀ := 0x0100#16 ||| s.s.setWidth 16
    let a₁ := 0x0100#16 ||| (s.s - 1#8).setWidth 16
    let a₂ := 0x0100#16 ||| (s.s - 2#8).setWidth 16
    Completes .brk s fun t =>
      t.readByte a₀ = hiByte ret ∧ t.readByte a₁ = loByte ret ∧ t.readByte a₂ = s.p ||| 0x30#8 ∧
      t.flag .i = true ∧
      t.pc.toNat = (s.readByte 0xFFFE#16).toNat + 256 * (s.readByte 0xFFFF#16).toNat ∧ t.s = s.s - 3#8 ∧
      RegsKept [.s] s t ∧ StatusKept [.i] s t ∧ MemKept [a₀, a₁, a₂] s t ∧ ControlKept s t ∧ FollowsRow .brk s t

/-- R350: BRK, then RTI from the state it leaves, resumes at PC0 + 2 with P and S as before the BRK, in every state that
satisfies the invariants. -/
def Obligations.RtiReturnsFromBrk : Prop :=
  ∀ s : State, Inv s →
    Completes .brk s fun t => Completes .rti t fun u => u.pc = s.pc + 2#16 ∧ u.p = s.p ∧ u.s = s.s

/-! ## Flags, transfers and NOP (49_flags_transfer_misc.md) -/

/-- R310–R316: SEC, CLC, SED, CLD, SEI, CLI, CLV write their one flag and nothing else. -/
def Obligations.FlagInstructionResult : Prop :=
  ∀ (i : Instr) (f : Flag) (v : Bool) (s : State),
    (i, f, v) ∈ [(Instr.sec, Flag.c, true), (.clc, .c, false), (.sed, .d, true), (.cld, .d, false), (.sei, .i, true),
      (.cli, .i, false), (.clv, .v, false)] →
    Completes i s fun t =>
      t.flag f = v ∧ t.pc = s.pc + 1#16 ∧
      RegsKept [] s t ∧ StatusKept [f] s t ∧ MemKept [] s t ∧ ControlKept s t ∧ FollowsRow i s t

/-- R317–R321: TAX, TXA, TAY, TYA, TSX copy a register, N and Z from the value, and change nothing else. -/
def Obligations.TransferResult : Prop :=
  ∀ (i : Instr) (src dst : Reg8) (s : State),
    (i, src, dst) ∈ [(Instr.tax, Reg8.a, Reg8.x), (.txa, .x, .a), (.tay, .a, .y), (.tya, .y, .a), (.tsx, .s, .x)] →
    Completes i s fun t =>
      t.reg dst = s.reg src ∧ FlagsOf (s.reg src) t ∧ t.pc = s.pc + 1#16 ∧
      RegsKept [dst] s t ∧ StatusKept [.n, .z] s t ∧ MemKept [] s t ∧ ControlKept s t ∧ FollowsRow i s t

/-- R322: TXS copies X to S and sets no flag. R323: NOP moves PC past itself and costs two cycles. Neither changes anything
else. -/
def Obligations.TxsAndNopResult : Prop :=
  ∀ s : State,
    (Completes .txs s fun t =>
      t.s = s.x ∧ t.pc = s.pc + 1#16 ∧ RegsKept [.s] s t ∧ StatusKept [] s t ∧ MemKept [] s t ∧ ControlKept s t ∧
      FollowsRow .txs s t) ∧
    (Completes .nop s fun t => t = { s with pc := s.pc + 1#16, cyclesLast := 2#8 } ∧ FollowsRow .nop s t)

/-! ## Whole-machine rules (10_state.md) -/

/-- R41: no instruction changes a flag that R41's table marks unchanged for it, nor bits 5 and 4 of a legal P. -/
def Obligations.OnlyTableFlagsWritten : Prop :=
  ∀ (i : Instr) (s : State), Inv s → Completes i s fun t =>
    StatusKept (flagsWritten i.mnemonic) s t ∧ t.p.getLsbD 5 = true ∧ t.p.getLsbD 4 = false

/-- R21–R23, R25: only the instructions those rules name write A, X, Y and S. R62: only stores, read-modify-writes and
pushes change memory. -/
def Obligations.OnlyNamedWritersWrite : Prop :=
  ∀ (i : Instr) (s : State), Completes i s fun t =>
    (i.mnemonic ∉ [Mnemonic.lda, .adc, .sbc, .and, .ora, .eor, .txa, .tya, .pla] → i.operand ≠ .accumulator → t.a = s.a) ∧
    (i.mnemonic ∉ [Mnemonic.ldx, .inx, .dex, .tax, .tsx] → t.x = s.x) ∧
    (i.mnemonic ∉ [Mnemonic.ldy, .iny, .dey, .tay] → t.y = s.y) ∧
    (i.mnemonic ∉ [Mnemonic.txs, .pha, .php, .pla, .plp, .jsr, .rts, .rti, .brk] → t.s = s.s) ∧
    (i.mnemonic ∉ [Mnemonic.sta, .stx, .sty, .asl, .lsr, .rol, .ror, .inc, .dec, .pha, .php, .jsr, .brk] → t.mem = s.mem)

/-! ## The host's commands (70_reset_and_hazards.md) -/

/-- R371, R372: `construct` refuses an image that does not fit, and otherwise gives an Uninitialized state with the registers
at INIT_*, the image at its load address, a non-zero entry point over it at the reset vector, and INIT_MEM elsewhere. -/
def Obligations.ConstructResult : Prop :=
  ∀ (ip : InitParams) (cfg : Config) (rom : List Byte) (la : Nat) (ep : Option Word), Memory.wf ip.mem = true →
    (¬(la ≤ 0xFFFF ∧ la + rom.length ≤ 65536) → construct ip cfg rom la ep = .refused .imageOutOfRange) ∧
    (la ≤ 0xFFFF → la + rom.length ≤ 65536 → ∃ s, construct ip cfg rom la ep = .next s ∧
      s.runState = .uninitialized ∧ s.lastOpcode = none ∧ s.cyclesLast = 0#8 ∧ s.fault = none ∧ s.cfg = cfg ∧
      s.a = ip.a ∧ s.x = ip.x ∧ s.y = ip.y ∧ s.s = ip.s ∧ s.p = ip.p ∧ s.pc = ip.pc ∧
      (∀ e, ep = some e → e ≠ 0#16 → s.readByte 0xFFFC#16 = loByte e ∧ s.readByte 0xFFFD#16 = hiByte e) ∧
      (∀ a : Word, ((a ≠ 0xFFFC#16 ∧ a ≠ 0xFFFD#16) ∨ ep = none ∨ ep = some 0#16) →
        (∀ k, a.toNat = la + k → ∀ v, rom[k]? = some v → s.readByte a = v) ∧
        (a.toNat < la ∨ la + rom.length ≤ a.toNat → s.readByte a = Memory.read ip.mem a.toNat)))

/-- R373: `initialize` in Uninitialized loads PC from the reset vector and makes the run state Ready, and changes nothing
else; in Ready and Halted it is refused. R375: a fixture is the Ready state it gives, refused where P is illegal. -/
def Obligations.InitializeAndFixtureResult : Prop :=
  (∀ s : State, s.runState = .uninitialized → ∃ t, initializeCore s = .next t ∧
    t.pc.toNat = (s.readByte 0xFFFC#16).toNat + 256 * (s.readByte 0xFFFD#16).toNat ∧
    t = { s with pc := t.pc, runState := .ready }) ∧
  (∀ s : State, s.runState ≠ .uninitialized → initializeCore s = .refused .alreadyInitialized) ∧
  (∀ (cfg : Config) (a x y sp p : Byte) (pc : Word) (mem : Memory), mem.wf = true →
    ((p.getLsbD 5 = true ∧ p.getLsbD 4 = false) →
      fixture cfg a x y sp p pc mem = .next ⟨a, x, y, sp, pc, p, mem, .ready, none, 0#8, none, cfg⟩) ∧
    (¬(p.getLsbD 5 = true ∧ p.getLsbD 4 = false) → fixture cfg a x y sp p pc mem = .refused .fixtureInvalid))
end

