-- ==== Sys2Proof/Laws/Flags.lean ====
section
/-! SUPPORT. The bits of a status byte after each of the flag engine's operations, and the numbers behind the byte helpers. -/

namespace Sys2Proof.Machine

open Sys2Proof

theorem Flag.bit_lt (f : Flag) : f.bit < 8 := by cases f <;> decide

theorem Flag.bit_inj {f g : Flag} (h : f.bit = g.bit) : f = g := by cases f <;> cases g <;> first | rfl | cases h

/-- Every bit of a status byte after one flag is written (10_state.md R38). -/
theorem putFlag_bit (p : Byte) (f : Flag) (v : Bool) {k : Nat} (hk : k < 8) :
    (putFlag p f v).getLsbD k = if f.bit = k then v else p.getLsbD k := by
  interval_cases k <;> cases f <;> cases v <;> simp [putFlag, Flag.mask, Flag.bit]

/-- A flag of a status byte after one flag is written. -/
theorem getFlag_putFlag (p : Byte) (f g : Flag) (v : Bool) : getFlag (putFlag p f v) g = if f = g then v else getFlag p g := by
  unfold getFlag
  rw [putFlag_bit p f v g.bit_lt]
  by_cases h : f = g
  · simp [h]
  · rw [if_neg h, if_neg fun e => h (Flag.bit_inj e)]

/-- A flag after one flag is written. -/
theorem State.setFlag_flag (s : State) (f g : Flag) (v : Bool) : (s.setFlag f v).flag g = if f = g then v else s.flag g :=
  getFlag_putFlag s.p f g v

/-- The bits of a status byte taken from a pulled byte (R39). -/
theorem statusFromByte_bit (b : Byte) {k : Nat} (hk : k < 8) :
    (statusFromByte b).getLsbD k = if k = 5 then true else if k = 4 then false else b.getLsbD k := by
  interval_cases k <;> simp [statusFromByte]

/-- The bits of the pushed image (R40). -/
theorem pushImage_bit (p : Byte) {k : Nat} (hk : k < 8) :
    (pushImage p).getLsbD k = if k = 5 ∨ k = 4 then true else p.getLsbD k := by
  interval_cases k <;> simp [pushImage]

/-- A legal P survives being pushed and pulled (48_stack.md R293). -/
theorem statusFromByte_pushImage {p : Byte} (h5 : p.getLsbD 5 = true) (h4 : p.getLsbD 4 = false) :
    statusFromByte (pushImage p) = p := by
  apply BitVec.eq_of_getLsbD_eq
  intro k hk
  rw [statusFromByte_bit _ hk, pushImage_bit _ hk]
  split
  · simp_all
  · split
    · simp_all
    · simp_all

/-- The sign bit as a comparison. -/
theorem byte_bit7 (r : Byte) : r.getLsbD 7 = decide (128 ≤ r.toNat) := by
  have := r.isLt
  rw [BitVec.getLsbD, Nat.testBit_eq_decide_div_mod_eq]
  by_cases h : 128 ≤ r.toNat
  · simp only [h, decide_true, decide_eq_true_eq]
    omega
  · simp only [h, decide_false, decide_eq_false_iff_not]
    omega

/-- Zero as a comparison. -/
theorem byte_beq_zero (r : Byte) : (r == 0x00#8) = decide (r.toNat = 0) := by
  rw [Bool.eq_iff_iff]
  simp only [beq_iff_eq, decide_eq_true_eq]
  exact ⟨fun h => by simp [h], fun h => BitVec.eq_of_toNat_eq (by simpa using h)⟩

/-- The flags after the general flag update (R36). -/
theorem setNZ_flagsOf (r : Byte) (s : State) : FlagsOf r (s.setNZ r) := by
  constructor
  · rw [State.setNZ, State.setFlag_flag, State.setFlag_flag]
    simp [byte_beq_zero]
  · rw [State.setNZ, State.setFlag_flag]
    rw [if_pos rfl, byte_bit7]

/-- The number of a word from its bytes (20_memory.md R64). -/
theorem wordOf_toNat (lo hi : Byte) : (wordOf lo hi).toNat = lo.toNat + 256 * hi.toNat := by
  have h1 := lo.isLt
  have h2 := hi.isLt
  have e : (zext16 hi <<< 8).toNat = hi.toNat <<< 8 := by
    simp only [zext16, BitVec.toNat_shiftLeft, BitVec.toNat_setWidth, Nat.shiftLeft_eq]
    omega
  have l : (zext16 lo).toNat = lo.toNat := by
    simp only [zext16, BitVec.toNat_setWidth]
    omega
  rw [wordOf, BitVec.toNat_or, e, l, Nat.or_comm, ← Nat.shiftLeft_add_eq_or_of_lt (by simpa using h1), Nat.shiftLeft_eq]
  omega

theorem loByte_toNat (w : Word) : (loByte w).toNat = w.toNat % 256 := by
  simp [loByte, BitVec.extractLsb'_toNat]

theorem hiByte_toNat (w : Word) : (hiByte w).toNat = w.toNat / 256 := by
  have := w.isLt
  simp only [hiByte, BitVec.extractLsb'_toNat, Nat.shiftRight_eq_div_pow]
  omega

/-- A word is made of its bytes. -/
theorem wordOf_lo_hi (w : Word) : wordOf (loByte w) (hiByte w) = w := by
  apply BitVec.eq_of_toNat_eq
  rw [wordOf_toNat, loByte_toNat, hiByte_toNat]
  omega

theorem loByte_wordOf (lo hi : Byte) : loByte (wordOf lo hi) = lo := by
  apply BitVec.eq_of_toNat_eq
  have := lo.isLt
  rw [loByte_toNat, wordOf_toNat]
  omega

theorem hiByte_wordOf (lo hi : Byte) : hiByte (wordOf lo hi) = hi := by
  apply BitVec.eq_of_toNat_eq
  have := lo.isLt
  rw [hiByte_toNat, wordOf_toNat]
  omega

theorem zext16_toNat (v : Byte) : (zext16 v).toNat = v.toNat := by
  have := v.isLt
  simp only [zext16, BitVec.toNat_setWidth]
  omega

/-- The number of a stack address: 256 + S, always in page 1 (20_memory.md R68). -/
theorem stackAddress_toNat (sp : Byte) : (stackAddress sp).toNat = 256 + sp.toNat := by
  have h := sp.isLt
  have : stackAddress sp = wordOf sp 0x01#8 := by
    rw [stackAddress, wordOf, BitVec.or_comm]
    rfl
  rw [this, wordOf_toNat]
  simp
  omega

theorem stackAddress_inj {a b : Byte} (h : stackAddress a = stackAddress b) : a = b := by
  have := congrArg BitVec.toNat h
  rw [stackAddress_toNat, stackAddress_toNat] at this
  exact BitVec.eq_of_toNat_eq (by omega)

end Sys2Proof.Machine
end

