-- ==== Sys2Proof/Laws/Decode.lean ====
section
/-! SUPPORT. The opcode table's cells and the decoder's steps. -/

namespace Sys2Proof

/-- Every byte is one of the 256 numerals, so what holds of each of them holds of every byte. -/
theorem byte_forall {P : Byte → Prop} (h : ∀ n, n < 256 → P (BitVec.ofNat 8 n)) : ∀ op, P op := by
  intro op
  have := h op.toNat op.isLt
  rwa [BitVec.ofNat_toNat, BitVec.setWidth_eq] at this

/-- A cell is empty exactly for the bytes R98 lists. -/
theorem opcodeEntry_isNone (op : Byte) : (opcodeEntry op).isNone = decide (op ∈ Machine.undefinedOpcodes) := by
  revert op; refine byte_forall fun n hn => ?_
  interval_cases n <;> decide

/-- What a cell builds, encodes to the byte the cell stands at, followed by the operand bytes (30_encoding.md R91–R92). -/
def EntryEncodes (op : Byte) : Option OpcodeEntry → Prop
  | none => True
  | some ⟨.f1 i, _, _⟩ => encode i = [op]
  | some ⟨.f2 mk, _, _⟩ => ∀ b, encode (mk b) = [op, b]
  | some ⟨.f3 mk, _, _⟩ => ∀ w, encode (mk w) = [op, loByte w, hiByte w]

/-- The table and the encoder agree on every cell. -/
theorem opcodeEntry_encodes (op : Byte) : EntryEncodes op (opcodeEntry op) := by
  revert op; refine byte_forall fun n hn => ?_
  interval_cases n <;> first | exact True.intro | exact (rfl : encode _ = _) | exact fun (_ : Byte) => rfl | exact fun (_ : Word) => rfl

/-- What decoding an opcode with an entry does, by its format (R91). -/
theorem decode_cons (op : Byte) (rest : List Byte) :
    decode (op :: rest) = match opcodeEntry op with
      | none => .error (.unimplementedOpcode op)
      | some e => takeOperand e.form rest := rfl

/-- Three bytes are never too few: the only error on them is R98's. -/
theorem decode_three (op b1 b2 : Byte) :
    (decode [op, b1, b2] = .error (.unimplementedOpcode op) ∧ opcodeEntry op = none) ∨
    ∃ i rest e, decode [op, b1, b2] = .ok (i, rest) ∧ opcodeEntry op = some e := by
  rw [decode_cons]
  cases h : opcodeEntry op with
  | none => exact .inl ⟨rfl, rfl⟩
  | some e =>
    right
    obtain ⟨form, c, x⟩ := e
    cases form <;> exact ⟨_, _, _, rfl, rfl⟩

end Sys2Proof
end

