-- ==== Sys2Proof/Laws/Memory.lean ====
section
/-! SUPPORT. The memory's basic laws: reading what was written, and that every operation keeps the canonical form. -/

namespace Sys2Proof.Machine

open Sys2Proof

/-- A cell put in front is read at its address, if nothing behind it claims to be there. -/
theorem consCell_read_self (a : Nat) (v : Byte) (m : Memory) (h : m.read a = Config.unlistedByte) :
    Memory.read (consCell a v m) a = v := by
  unfold consCell
  split
  · simp_all
  · simp [Memory.read]

/-- A cell put in front is not read elsewhere. -/
theorem consCell_read_other (a b : Nat) (v : Byte) (m : Memory) (h : b ≠ a) :
    Memory.read (consCell a v m) b = m.read b := by
  unfold consCell
  split
  · rfl
  · simp [Memory.read, h]

/-- The form from `low` upward is the form from any lower bound. -/
theorem Memory.wfFrom_mono {low low' : Nat} (h : low' ≤ low) : ∀ {m : Memory}, m.wfFrom low = true → m.wfFrom low' = true
  | [], _ => rfl
  | (a, v) :: rest, hw => by
    simp only [Memory.wfFrom, Bool.and_eq_true, decide_eq_true_eq] at hw ⊢
    exact ⟨⟨⟨by omega, hw.1.1.2⟩, hw.1.2⟩, hw.2⟩

/-- Below its lower bound a memory in canonical form lists nothing. -/
theorem Memory.read_below {low a : Nat} (h : a < low) : ∀ {m : Memory}, m.wfFrom low = true → m.read a = Config.unlistedByte
  | [], _ => rfl
  | (b, v) :: rest, hw => by
    simp only [Memory.wfFrom, Bool.and_eq_true, decide_eq_true_eq] at hw
    have : a ≠ b := by omega
    simp only [Memory.read, this, if_false]
    exact Memory.read_below (low := b + 1) (by omega) hw.2

/-- Reading at the address written (20_memory.md R62). -/
theorem Memory.read_write_self (a : Nat) (v : Byte) :
    ∀ {m : Memory} {low : Nat}, m.wfFrom low = true → (m.write a v).read a = v
  | [], _, _ => consCell_read_self a v [] rfl
  | (b, w) :: rest, low, hw => by
    have hw' := hw
    simp only [Memory.wfFrom, Bool.and_eq_true, decide_eq_true_eq] at hw
    unfold Memory.write
    split
    · refine consCell_read_self a v _ (Memory.read_below (low := b) ‹_› ?_)
      simp only [Memory.wfFrom, Bool.and_eq_true, decide_eq_true_eq]
      exact ⟨⟨⟨Nat.le_refl b, hw.1.1.2⟩, hw.1.2⟩, hw.2⟩
    · split
      · subst_vars
        exact consCell_read_self _ v rest (Memory.read_below (by omega) hw.2)
      · simp only [Memory.read, ‹¬a = b›, if_false]
        exact Memory.read_write_self a v hw.2

/-- Reading at any other address (20_memory.md R62). -/
theorem Memory.read_write_other {a b : Nat} (v : Byte) (h : b ≠ a) : ∀ m : Memory, (m.write a v).read b = m.read b
  | [] => consCell_read_other a b v [] h
  | (c, w) :: rest => by
    unfold Memory.write
    split
    · exact consCell_read_other a b v _ h
    · split
      · subst_vars
        simp [consCell_read_other _ _ v rest h, Memory.read, h]
      · simp only [Memory.read]
        split
        · rfl
        · exact Memory.read_write_other v h rest

/-- A cell put in front of what lies above it keeps the form. -/
theorem consCell_wfFrom {low a : Nat} (v : Byte) {m : Memory} (hl : low ≤ a) (ha : a < 65536)
    (h : m.wfFrom (a + 1) = true) : Memory.wfFrom low (consCell a v m) = true := by
  unfold consCell
  split
  · exact Memory.wfFrom_mono (by omega) h
  · simp_all [Memory.wfFrom]

/-- A write keeps the form. -/
theorem Memory.wfFrom_write {a : Nat} (v : Byte) (ha : a < 65536) :
    ∀ {m : Memory} {low : Nat}, low ≤ a → m.wfFrom low = true → (m.write a v).wfFrom low = true
  | [], low, hl, _ => consCell_wfFrom v hl ha rfl
  | (b, w) :: rest, low, hl, hw => by
    simp only [Memory.wfFrom, Bool.and_eq_true, decide_eq_true_eq] at hw
    unfold Memory.write
    split
    · refine consCell_wfFrom v hl ha ?_
      simp only [Memory.wfFrom, Bool.and_eq_true, decide_eq_true_eq]
      exact ⟨⟨⟨by omega, hw.1.1.2⟩, hw.1.2⟩, hw.2⟩
    · split
      · subst_vars
        exact consCell_wfFrom v hl ha hw.2
      · simp only [Memory.wfFrom, Bool.and_eq_true, decide_eq_true_eq]
        exact ⟨⟨⟨hw.1.1.1, hw.1.1.2⟩, hw.1.2⟩, Memory.wfFrom_write v ha (by omega) hw.2⟩

/-- `write` keeps the canonical form. -/
theorem Memory.wf_write {m : Memory} {a : Nat} (v : Byte) (ha : a < 65536) (h : m.wf = true) : (m.write a v).wf = true :=
  Memory.wfFrom_write v ha (Nat.zero_le a) h

/-- `load` keeps the canonical form. -/
theorem Memory.wf_load : ∀ (bytes : List Byte) {m : Memory} {a : Nat}, a + bytes.length ≤ 65536 → m.wf = true →
    (m.load a bytes).wf = true
  | [], _, _, _, h => h
  | v :: rest, m, a, hb, h => by
    simp only [List.length_cons] at hb
    exact Memory.wf_load rest (by omega) (Memory.wf_write v (by omega) h)

/-- `load` leaves the addresses outside its bytes alone. -/
theorem Memory.read_load_other : ∀ (bytes : List Byte) {m : Memory} {a b : Nat}, b < a ∨ a + bytes.length ≤ b →
    (m.load a bytes).read b = m.read b
  | [], _, _, _, _ => rfl
  | v :: rest, m, a, b, h => by
    simp only [List.length_cons] at h
    rw [Memory.load, Memory.read_load_other rest (by omega), Memory.read_write_other v (by omega)]

/-- `load` puts its bytes at rising addresses. -/
theorem Memory.read_load_self : ∀ (bytes : List Byte) {m : Memory} {a k : Nat} {v : Byte}, a + bytes.length ≤ 65536 →
    m.wf = true → bytes[k]? = some v → (m.load a bytes).read (a + k) = v
  | [], _, _, _, _, _, _, hk => by simp at hk
  | w :: rest, m, a, 0, v, hb, h, hk => by
    simp only [List.length_cons] at hb
    have : w = v := by simpa using hk
    rw [Memory.load, Memory.read_load_other rest (by omega), Nat.add_zero, Memory.read_write_self a w h, this]
  | w :: rest, m, a, k + 1, v, hb, h, hk => by
    simp only [List.length_cons] at hb
    rw [show a + (k + 1) = a + 1 + k by omega, Memory.load]
    exact Memory.read_load_self rest (by omega) (Memory.wf_write w (by omega) h) (by simpa using hk)

/-- Memory after reset is in canonical form. -/
theorem State.reset_mem_wf : State.reset.mem.wf = true := rfl

/-! ## The same of the state's byte accesses -/

theorem State.writeByte_read_self {s : State} (a : Word) (v : Byte) (h : s.mem.wf = true) :
    (s.writeByte a v).readByte a = v := Memory.read_write_self a.toNat v h

theorem State.writeByte_read_other {s : State} {a b : Word} (v : Byte) (h : b ≠ a) :
    (s.writeByte a v).readByte b = s.readByte b :=
  Memory.read_write_other v (fun e => h (BitVec.eq_of_toNat_eq e)) s.mem

theorem State.writeByte_wf {s : State} (a : Word) (v : Byte) (h : s.mem.wf = true) : (s.writeByte a v).mem.wf = true :=
  Memory.wf_write v a.isLt h

/-- Storing a list of bytes keeps the canonical form. -/
theorem storeBytes_wf : ∀ (bytes : List Byte) (a : Word) {s : State}, s.mem.wf = true → (storeBytes a bytes s).mem.wf = true
  | [], _, _, h => h
  | v :: rest, a, _, h => storeBytes_wf rest (a + 1#16) (State.writeByte_wf a v h)

end Sys2Proof.Machine
end

