-- ==== Sys2Proof/Laws/State.lean ====
section
/-! SUPPORT. What each update of State leaves in each field: one lemma per field per update, so that no later proof unfolds a record update. -/

namespace Sys2Proof.Machine

open Sys2Proof

/-! ## setFlag -/

@[simp] theorem State.setFlag_a (s : State) (f : Flag) (v : Bool) : (s.setFlag f v).a = s.a := rfl
@[simp] theorem State.setFlag_x (s : State) (f : Flag) (v : Bool) : (s.setFlag f v).x = s.x := rfl
@[simp] theorem State.setFlag_y (s : State) (f : Flag) (v : Bool) : (s.setFlag f v).y = s.y := rfl
@[simp] theorem State.setFlag_s (s : State) (f : Flag) (v : Bool) : (s.setFlag f v).s = s.s := rfl
@[simp] theorem State.setFlag_pc (s : State) (f : Flag) (v : Bool) : (s.setFlag f v).pc = s.pc := rfl
@[simp] theorem State.setFlag_p (s : State) (f : Flag) (v : Bool) : (s.setFlag f v).p = putFlag s.p f v := rfl
@[simp] theorem State.setFlag_mem (s : State) (f : Flag) (v : Bool) : (s.setFlag f v).mem = s.mem := rfl
@[simp] theorem State.setFlag_runState (s : State) (f : Flag) (v : Bool) : (s.setFlag f v).runState = s.runState := rfl
@[simp] theorem State.setFlag_lastOpcode (s : State) (f : Flag) (v : Bool) : (s.setFlag f v).lastOpcode = s.lastOpcode := rfl
@[simp] theorem State.setFlag_cyclesLast (s : State) (f : Flag) (v : Bool) : (s.setFlag f v).cyclesLast = s.cyclesLast := rfl
@[simp] theorem State.setFlag_fault (s : State) (f : Flag) (v : Bool) : (s.setFlag f v).fault = s.fault := rfl
@[simp] theorem State.setFlag_cfg (s : State) (f : Flag) (v : Bool) : (s.setFlag f v).cfg = s.cfg := rfl

/-! ## setNZ -/

@[simp] theorem State.setNZ_a (s : State) (r : Byte) : (s.setNZ r).a = s.a := rfl
@[simp] theorem State.setNZ_x (s : State) (r : Byte) : (s.setNZ r).x = s.x := rfl
@[simp] theorem State.setNZ_y (s : State) (r : Byte) : (s.setNZ r).y = s.y := rfl
@[simp] theorem State.setNZ_s (s : State) (r : Byte) : (s.setNZ r).s = s.s := rfl
@[simp] theorem State.setNZ_pc (s : State) (r : Byte) : (s.setNZ r).pc = s.pc := rfl
@[simp] theorem State.setNZ_p (s : State) (r : Byte) : (s.setNZ r).p = putFlag (putFlag s.p .z (r == 0x00#8)) .n (r.getLsbD 7) := rfl
@[simp] theorem State.setNZ_mem (s : State) (r : Byte) : (s.setNZ r).mem = s.mem := rfl
@[simp] theorem State.setNZ_runState (s : State) (r : Byte) : (s.setNZ r).runState = s.runState := rfl
@[simp] theorem State.setNZ_lastOpcode (s : State) (r : Byte) : (s.setNZ r).lastOpcode = s.lastOpcode := rfl
@[simp] theorem State.setNZ_cyclesLast (s : State) (r : Byte) : (s.setNZ r).cyclesLast = s.cyclesLast := rfl
@[simp] theorem State.setNZ_fault (s : State) (r : Byte) : (s.setNZ r).fault = s.fault := rfl
@[simp] theorem State.setNZ_cfg (s : State) (r : Byte) : (s.setNZ r).cfg = s.cfg := rfl

/-! ## writeP -/

@[simp] theorem State.writeP_a (s : State) (b : Byte) : (s.writeP b).a = s.a := rfl
@[simp] theorem State.writeP_x (s : State) (b : Byte) : (s.writeP b).x = s.x := rfl
@[simp] theorem State.writeP_y (s : State) (b : Byte) : (s.writeP b).y = s.y := rfl
@[simp] theorem State.writeP_s (s : State) (b : Byte) : (s.writeP b).s = s.s := rfl
@[simp] theorem State.writeP_pc (s : State) (b : Byte) : (s.writeP b).pc = s.pc := rfl
@[simp] theorem State.writeP_p (s : State) (b : Byte) : (s.writeP b).p = statusFromByte b := rfl
@[simp] theorem State.writeP_mem (s : State) (b : Byte) : (s.writeP b).mem = s.mem := rfl
@[simp] theorem State.writeP_runState (s : State) (b : Byte) : (s.writeP b).runState = s.runState := rfl
@[simp] theorem State.writeP_lastOpcode (s : State) (b : Byte) : (s.writeP b).lastOpcode = s.lastOpcode := rfl
@[simp] theorem State.writeP_cyclesLast (s : State) (b : Byte) : (s.writeP b).cyclesLast = s.cyclesLast := rfl
@[simp] theorem State.writeP_fault (s : State) (b : Byte) : (s.writeP b).fault = s.fault := rfl
@[simp] theorem State.writeP_cfg (s : State) (b : Byte) : (s.writeP b).cfg = s.cfg := rfl

/-! ## writeByte -/

@[simp] theorem State.writeByte_a (s : State) (w : Word) (v : Byte) : (s.writeByte w v).a = s.a := rfl
@[simp] theorem State.writeByte_x (s : State) (w : Word) (v : Byte) : (s.writeByte w v).x = s.x := rfl
@[simp] theorem State.writeByte_y (s : State) (w : Word) (v : Byte) : (s.writeByte w v).y = s.y := rfl
@[simp] theorem State.writeByte_s (s : State) (w : Word) (v : Byte) : (s.writeByte w v).s = s.s := rfl
@[simp] theorem State.writeByte_pc (s : State) (w : Word) (v : Byte) : (s.writeByte w v).pc = s.pc := rfl
@[simp] theorem State.writeByte_p (s : State) (w : Word) (v : Byte) : (s.writeByte w v).p = s.p := rfl
@[simp] theorem State.writeByte_mem (s : State) (w : Word) (v : Byte) : (s.writeByte w v).mem = s.mem.write w.toNat v := rfl
@[simp] theorem State.writeByte_runState (s : State) (w : Word) (v : Byte) : (s.writeByte w v).runState = s.runState := rfl
@[simp] theorem State.writeByte_lastOpcode (s : State) (w : Word) (v : Byte) : (s.writeByte w v).lastOpcode = s.lastOpcode := rfl
@[simp] theorem State.writeByte_cyclesLast (s : State) (w : Word) (v : Byte) : (s.writeByte w v).cyclesLast = s.cyclesLast := rfl
@[simp] theorem State.writeByte_fault (s : State) (w : Word) (v : Byte) : (s.writeByte w v).fault = s.fault := rfl
@[simp] theorem State.writeByte_cfg (s : State) (w : Word) (v : Byte) : (s.writeByte w v).cfg = s.cfg := rfl

/-! ## setPc -/

@[simp] theorem State.setPc_a (s : State) (w : Word) : (s.setPc w).a = s.a := rfl
@[simp] theorem State.setPc_x (s : State) (w : Word) : (s.setPc w).x = s.x := rfl
@[simp] theorem State.setPc_y (s : State) (w : Word) : (s.setPc w).y = s.y := rfl
@[simp] theorem State.setPc_s (s : State) (w : Word) : (s.setPc w).s = s.s := rfl
@[simp] theorem State.setPc_pc (s : State) (w : Word) : (s.setPc w).pc = w := rfl
@[simp] theorem State.setPc_p (s : State) (w : Word) : (s.setPc w).p = s.p := rfl
@[simp] theorem State.setPc_mem (s : State) (w : Word) : (s.setPc w).mem = s.mem := rfl
@[simp] theorem State.setPc_runState (s : State) (w : Word) : (s.setPc w).runState = s.runState := rfl
@[simp] theorem State.setPc_lastOpcode (s : State) (w : Word) : (s.setPc w).lastOpcode = s.lastOpcode := rfl
@[simp] theorem State.setPc_cyclesLast (s : State) (w : Word) : (s.setPc w).cyclesLast = s.cyclesLast := rfl
@[simp] theorem State.setPc_fault (s : State) (w : Word) : (s.setPc w).fault = s.fault := rfl
@[simp] theorem State.setPc_cfg (s : State) (w : Word) : (s.setPc w).cfg = s.cfg := rfl

/-! ## setCycles -/

@[simp] theorem State.setCycles_a (s : State) (n : Nat) : (s.setCycles n).a = s.a := rfl
@[simp] theorem State.setCycles_x (s : State) (n : Nat) : (s.setCycles n).x = s.x := rfl
@[simp] theorem State.setCycles_y (s : State) (n : Nat) : (s.setCycles n).y = s.y := rfl
@[simp] theorem State.setCycles_s (s : State) (n : Nat) : (s.setCycles n).s = s.s := rfl
@[simp] theorem State.setCycles_pc (s : State) (n : Nat) : (s.setCycles n).pc = s.pc := rfl
@[simp] theorem State.setCycles_p (s : State) (n : Nat) : (s.setCycles n).p = s.p := rfl
@[simp] theorem State.setCycles_mem (s : State) (n : Nat) : (s.setCycles n).mem = s.mem := rfl
@[simp] theorem State.setCycles_runState (s : State) (n : Nat) : (s.setCycles n).runState = s.runState := rfl
@[simp] theorem State.setCycles_lastOpcode (s : State) (n : Nat) : (s.setCycles n).lastOpcode = s.lastOpcode := rfl
@[simp] theorem State.setCycles_cyclesLast (s : State) (n : Nat) : (s.setCycles n).cyclesLast = BitVec.ofNat 8 n := rfl
@[simp] theorem State.setCycles_fault (s : State) (n : Nat) : (s.setCycles n).fault = s.fault := rfl
@[simp] theorem State.setCycles_cfg (s : State) (n : Nat) : (s.setCycles n).cfg = s.cfg := rfl

/-! ## retire -/

@[simp] theorem State.retire_a (s : State) (l n : Nat) : (s.retire l n).a = s.a := rfl
@[simp] theorem State.retire_x (s : State) (l n : Nat) : (s.retire l n).x = s.x := rfl
@[simp] theorem State.retire_y (s : State) (l n : Nat) : (s.retire l n).y = s.y := rfl
@[simp] theorem State.retire_s (s : State) (l n : Nat) : (s.retire l n).s = s.s := rfl
@[simp] theorem State.retire_pc (s : State) (l n : Nat) : (s.retire l n).pc = s.pc + BitVec.ofNat 16 l := rfl
@[simp] theorem State.retire_p (s : State) (l n : Nat) : (s.retire l n).p = s.p := rfl
@[simp] theorem State.retire_mem (s : State) (l n : Nat) : (s.retire l n).mem = s.mem := rfl
@[simp] theorem State.retire_runState (s : State) (l n : Nat) : (s.retire l n).runState = s.runState := rfl
@[simp] theorem State.retire_lastOpcode (s : State) (l n : Nat) : (s.retire l n).lastOpcode = s.lastOpcode := rfl
@[simp] theorem State.retire_cyclesLast (s : State) (l n : Nat) : (s.retire l n).cyclesLast = BitVec.ofNat 8 n := rfl
@[simp] theorem State.retire_fault (s : State) (l n : Nat) : (s.retire l n).fault = s.fault := rfl
@[simp] theorem State.retire_cfg (s : State) (l n : Nat) : (s.retire l n).cfg = s.cfg := rfl

/-! ## push -/

@[simp] theorem State.push_a (s : State) (v : Byte) : (s.push v).a = s.a := rfl
@[simp] theorem State.push_x (s : State) (v : Byte) : (s.push v).x = s.x := rfl
@[simp] theorem State.push_y (s : State) (v : Byte) : (s.push v).y = s.y := rfl
@[simp] theorem State.push_s (s : State) (v : Byte) : (s.push v).s = s.s - 1#8 := rfl
@[simp] theorem State.push_pc (s : State) (v : Byte) : (s.push v).pc = s.pc := rfl
@[simp] theorem State.push_p (s : State) (v : Byte) : (s.push v).p = s.p := rfl
@[simp] theorem State.push_mem (s : State) (v : Byte) : (s.push v).mem = s.mem.write (stackAddress s.s).toNat v := rfl
@[simp] theorem State.push_runState (s : State) (v : Byte) : (s.push v).runState = s.runState := rfl
@[simp] theorem State.push_lastOpcode (s : State) (v : Byte) : (s.push v).lastOpcode = s.lastOpcode := rfl
@[simp] theorem State.push_cyclesLast (s : State) (v : Byte) : (s.push v).cyclesLast = s.cyclesLast := rfl
@[simp] theorem State.push_fault (s : State) (v : Byte) : (s.push v).fault = s.fault := rfl
@[simp] theorem State.push_cfg (s : State) (v : Byte) : (s.push v).cfg = s.cfg := rfl

/-! ## pull -/

@[simp] theorem State.pull_a (s : State) : (s.pull.2).a = s.a := rfl
@[simp] theorem State.pull_x (s : State) : (s.pull.2).x = s.x := rfl
@[simp] theorem State.pull_y (s : State) : (s.pull.2).y = s.y := rfl
@[simp] theorem State.pull_s (s : State) : (s.pull.2).s = s.s + 1#8 := rfl
@[simp] theorem State.pull_pc (s : State) : (s.pull.2).pc = s.pc := rfl
@[simp] theorem State.pull_p (s : State) : (s.pull.2).p = s.p := rfl
@[simp] theorem State.pull_mem (s : State) : (s.pull.2).mem = s.mem := rfl
@[simp] theorem State.pull_runState (s : State) : (s.pull.2).runState = s.runState := rfl
@[simp] theorem State.pull_lastOpcode (s : State) : (s.pull.2).lastOpcode = s.lastOpcode := rfl
@[simp] theorem State.pull_cyclesLast (s : State) : (s.pull.2).cyclesLast = s.cyclesLast := rfl
@[simp] theorem State.pull_fault (s : State) : (s.pull.2).fault = s.fault := rfl
@[simp] theorem State.pull_cfg (s : State) : (s.pull.2).cfg = s.cfg := rfl

/-! ## pushWord -/

@[simp] theorem State.pushWord_a (s : State) (w : Word) : (s.pushWord w).a = s.a := rfl
@[simp] theorem State.pushWord_x (s : State) (w : Word) : (s.pushWord w).x = s.x := rfl
@[simp] theorem State.pushWord_y (s : State) (w : Word) : (s.pushWord w).y = s.y := rfl
@[simp] theorem State.pushWord_s (s : State) (w : Word) : (s.pushWord w).s = s.s - 1#8 - 1#8 := rfl
@[simp] theorem State.pushWord_pc (s : State) (w : Word) : (s.pushWord w).pc = s.pc := rfl
@[simp] theorem State.pushWord_p (s : State) (w : Word) : (s.pushWord w).p = s.p := rfl
@[simp] theorem State.pushWord_mem (s : State) (w : Word) : (s.pushWord w).mem = (s.mem.write (stackAddress s.s).toNat (hiByte w)).write (stackAddress (s.s - 1#8)).toNat (loByte w) := rfl
@[simp] theorem State.pushWord_runState (s : State) (w : Word) : (s.pushWord w).runState = s.runState := rfl
@[simp] theorem State.pushWord_lastOpcode (s : State) (w : Word) : (s.pushWord w).lastOpcode = s.lastOpcode := rfl
@[simp] theorem State.pushWord_cyclesLast (s : State) (w : Word) : (s.pushWord w).cyclesLast = s.cyclesLast := rfl
@[simp] theorem State.pushWord_fault (s : State) (w : Word) : (s.pushWord w).fault = s.fault := rfl
@[simp] theorem State.pushWord_cfg (s : State) (w : Word) : (s.pushWord w).cfg = s.cfg := rfl

/-! ## pullWord -/

@[simp] theorem State.pullWord_a (s : State) : (s.pullWord.2).a = s.a := rfl
@[simp] theorem State.pullWord_x (s : State) : (s.pullWord.2).x = s.x := rfl
@[simp] theorem State.pullWord_y (s : State) : (s.pullWord.2).y = s.y := rfl
@[simp] theorem State.pullWord_s (s : State) : (s.pullWord.2).s = s.s + 1#8 + 1#8 := rfl
@[simp] theorem State.pullWord_pc (s : State) : (s.pullWord.2).pc = s.pc := rfl
@[simp] theorem State.pullWord_p (s : State) : (s.pullWord.2).p = s.p := rfl
@[simp] theorem State.pullWord_mem (s : State) : (s.pullWord.2).mem = s.mem := rfl
@[simp] theorem State.pullWord_runState (s : State) : (s.pullWord.2).runState = s.runState := rfl
@[simp] theorem State.pullWord_lastOpcode (s : State) : (s.pullWord.2).lastOpcode = s.lastOpcode := rfl
@[simp] theorem State.pullWord_cyclesLast (s : State) : (s.pullWord.2).cyclesLast = s.cyclesLast := rfl
@[simp] theorem State.pullWord_fault (s : State) : (s.pullWord.2).fault = s.fault := rfl
@[simp] theorem State.pullWord_cfg (s : State) : (s.pullWord.2).cfg = s.cfg := rfl

/-! ## noteFetch -/

@[simp] theorem State.noteFetch_a (s : State) : (noteFetch s).a = s.a := rfl
@[simp] theorem State.noteFetch_x (s : State) : (noteFetch s).x = s.x := rfl
@[simp] theorem State.noteFetch_y (s : State) : (noteFetch s).y = s.y := rfl
@[simp] theorem State.noteFetch_s (s : State) : (noteFetch s).s = s.s := rfl
@[simp] theorem State.noteFetch_pc (s : State) : (noteFetch s).pc = s.pc := rfl
@[simp] theorem State.noteFetch_p (s : State) : (noteFetch s).p = s.p := rfl
@[simp] theorem State.noteFetch_mem (s : State) : (noteFetch s).mem = s.mem := rfl
@[simp] theorem State.noteFetch_runState (s : State) : (noteFetch s).runState = s.runState := rfl
@[simp] theorem State.noteFetch_lastOpcode (s : State) : (noteFetch s).lastOpcode = some (s.readByte s.pc) := rfl
@[simp] theorem State.noteFetch_cyclesLast (s : State) : (noteFetch s).cyclesLast = s.cyclesLast := rfl
@[simp] theorem State.noteFetch_fault (s : State) : (noteFetch s).fault = s.fault := rfl
@[simp] theorem State.noteFetch_cfg (s : State) : (noteFetch s).cfg = s.cfg := rfl

/-! ## haltWith -/

@[simp] theorem State.haltWith_a (s : State) (k : FaultKind) (op : Byte) : (haltWith k op s).a = s.a := rfl
@[simp] theorem State.haltWith_x (s : State) (k : FaultKind) (op : Byte) : (haltWith k op s).x = s.x := rfl
@[simp] theorem State.haltWith_y (s : State) (k : FaultKind) (op : Byte) : (haltWith k op s).y = s.y := rfl
@[simp] theorem State.haltWith_s (s : State) (k : FaultKind) (op : Byte) : (haltWith k op s).s = s.s := rfl
@[simp] theorem State.haltWith_pc (s : State) (k : FaultKind) (op : Byte) : (haltWith k op s).pc = s.pc := rfl
@[simp] theorem State.haltWith_p (s : State) (k : FaultKind) (op : Byte) : (haltWith k op s).p = s.p := rfl
@[simp] theorem State.haltWith_mem (s : State) (k : FaultKind) (op : Byte) : (haltWith k op s).mem = s.mem := rfl
@[simp] theorem State.haltWith_runState (s : State) (k : FaultKind) (op : Byte) : (haltWith k op s).runState = .halted := rfl
@[simp] theorem State.haltWith_lastOpcode (s : State) (k : FaultKind) (op : Byte) : (haltWith k op s).lastOpcode = s.lastOpcode := rfl
@[simp] theorem State.haltWith_cyclesLast (s : State) (k : FaultKind) (op : Byte) : (haltWith k op s).cyclesLast = s.cyclesLast := rfl
@[simp] theorem State.haltWith_fault (s : State) (k : FaultKind) (op : Byte) : (haltWith k op s).fault = some ⟨k, op, s.pc⟩ := rfl
@[simp] theorem State.haltWith_cfg (s : State) (k : FaultKind) (op : Byte) : (haltWith k op s).cfg = s.cfg := rfl

/-! ## setReg -/

@[simp] theorem State.setReg_a_a (s : State) (v : Byte) : (s.setReg .a v).a = v := rfl
@[simp] theorem State.setReg_a_x (s : State) (v : Byte) : (s.setReg .a v).x = s.x := rfl
@[simp] theorem State.setReg_a_y (s : State) (v : Byte) : (s.setReg .a v).y = s.y := rfl
@[simp] theorem State.setReg_a_s (s : State) (v : Byte) : (s.setReg .a v).s = s.s := rfl
@[simp] theorem State.setReg_x_a (s : State) (v : Byte) : (s.setReg .x v).a = s.a := rfl
@[simp] theorem State.setReg_x_x (s : State) (v : Byte) : (s.setReg .x v).x = v := rfl
@[simp] theorem State.setReg_x_y (s : State) (v : Byte) : (s.setReg .x v).y = s.y := rfl
@[simp] theorem State.setReg_x_s (s : State) (v : Byte) : (s.setReg .x v).s = s.s := rfl
@[simp] theorem State.setReg_y_a (s : State) (v : Byte) : (s.setReg .y v).a = s.a := rfl
@[simp] theorem State.setReg_y_x (s : State) (v : Byte) : (s.setReg .y v).x = s.x := rfl
@[simp] theorem State.setReg_y_y (s : State) (v : Byte) : (s.setReg .y v).y = v := rfl
@[simp] theorem State.setReg_y_s (s : State) (v : Byte) : (s.setReg .y v).s = s.s := rfl
@[simp] theorem State.setReg_s_a (s : State) (v : Byte) : (s.setReg .s v).a = s.a := rfl
@[simp] theorem State.setReg_s_x (s : State) (v : Byte) : (s.setReg .s v).x = s.x := rfl
@[simp] theorem State.setReg_s_y (s : State) (v : Byte) : (s.setReg .s v).y = s.y := rfl
@[simp] theorem State.setReg_s_s (s : State) (v : Byte) : (s.setReg .s v).s = v := rfl
@[simp] theorem State.setReg_pc (s : State) (r : Reg8) (v : Byte) : (s.setReg r v).pc = s.pc := by cases r <;> rfl
@[simp] theorem State.setReg_p (s : State) (r : Reg8) (v : Byte) : (s.setReg r v).p = s.p := by cases r <;> rfl
@[simp] theorem State.setReg_mem (s : State) (r : Reg8) (v : Byte) : (s.setReg r v).mem = s.mem := by cases r <;> rfl
@[simp] theorem State.setReg_runState (s : State) (r : Reg8) (v : Byte) : (s.setReg r v).runState = s.runState := by cases r <;> rfl
@[simp] theorem State.setReg_lastOpcode (s : State) (r : Reg8) (v : Byte) : (s.setReg r v).lastOpcode = s.lastOpcode := by cases r <;> rfl
@[simp] theorem State.setReg_cyclesLast (s : State) (r : Reg8) (v : Byte) : (s.setReg r v).cyclesLast = s.cyclesLast := by cases r <;> rfl
@[simp] theorem State.setReg_fault (s : State) (r : Reg8) (v : Byte) : (s.setReg r v).fault = s.fault := by cases r <;> rfl
@[simp] theorem State.setReg_cfg (s : State) (r : Reg8) (v : Byte) : (s.setReg r v).cfg = s.cfg := by cases r <;> rfl

/-- Registers after a register write. -/
theorem State.setReg_reg (s : State) (r q : Reg8) (v : Byte) : (s.setReg r v).reg q = if q = r then v else s.reg q := by
  cases r <;> cases q <;> rfl

/-! ## What reads only one field -/

theorem State.flag_eq (s : State) (f : Flag) : s.flag f = s.p.getLsbD f.bit := rfl

theorem State.readByte_eq (s : State) (a : Word) : s.readByte a = s.mem.read a.toNat := rfl

theorem State.pull_byte (s : State) : s.pull.1 = s.readByte (stackAddress (s.s + 1#8)) := rfl

theorem State.pullWord_word (s : State) :
    s.pullWord.1 = wordOf (s.readByte (stackAddress (s.s + 1#8))) (s.readByte (stackAddress (s.s + 1#8 + 1#8))) := rfl

theorem stackAddress_eq (sp : Byte) : stackAddress sp = 0x0100#16 ||| sp.setWidth 16 := rfl

@[simp] theorem State.setFlag_reg' (s : State) (f : Flag) (v : Bool) (q : Reg8) : (s.setFlag f v).reg q = s.reg q := by cases q <;> rfl
@[simp] theorem State.setFlag_readByte (s : State) (f : Flag) (v : Bool) (w' : Word) : (s.setFlag f v).readByte w' = s.readByte w' := rfl
@[simp] theorem State.setNZ_reg' (s : State) (r : Byte) (q : Reg8) : (s.setNZ r).reg q = s.reg q := by cases q <;> rfl
@[simp] theorem State.setNZ_readByte (s : State) (r : Byte) (w' : Word) : (s.setNZ r).readByte w' = s.readByte w' := rfl
@[simp] theorem State.writeP_reg' (s : State) (b : Byte) (q : Reg8) : (s.writeP b).reg q = s.reg q := by cases q <;> rfl
@[simp] theorem State.writeP_readByte (s : State) (b : Byte) (w' : Word) : (s.writeP b).readByte w' = s.readByte w' := rfl
@[simp] theorem State.writeByte_reg' (s : State) (w : Word) (v : Byte) (q : Reg8) : (s.writeByte w v).reg q = s.reg q := by cases q <;> rfl
@[simp] theorem State.writeByte_flag (s : State) (w : Word) (v : Byte) (g : Flag) : (s.writeByte w v).flag g = s.flag g := rfl
@[simp] theorem State.setPc_reg' (s : State) (w : Word) (q : Reg8) : (s.setPc w).reg q = s.reg q := by cases q <;> rfl
@[simp] theorem State.setPc_readByte (s : State) (w : Word) (w' : Word) : (s.setPc w).readByte w' = s.readByte w' := rfl
@[simp] theorem State.setPc_flag (s : State) (w : Word) (g : Flag) : (s.setPc w).flag g = s.flag g := rfl
@[simp] theorem State.setCycles_reg' (s : State) (n : Nat) (q : Reg8) : (s.setCycles n).reg q = s.reg q := by cases q <;> rfl
@[simp] theorem State.setCycles_readByte (s : State) (n : Nat) (w' : Word) : (s.setCycles n).readByte w' = s.readByte w' := rfl
@[simp] theorem State.setCycles_flag (s : State) (n : Nat) (g : Flag) : (s.setCycles n).flag g = s.flag g := rfl
@[simp] theorem State.retire_reg' (s : State) (l n : Nat) (q : Reg8) : (s.retire l n).reg q = s.reg q := by cases q <;> rfl
@[simp] theorem State.retire_readByte (s : State) (l n : Nat) (w' : Word) : (s.retire l n).readByte w' = s.readByte w' := rfl
@[simp] theorem State.retire_flag (s : State) (l n : Nat) (g : Flag) : (s.retire l n).flag g = s.flag g := rfl
@[simp] theorem State.push_flag (s : State) (v : Byte) (g : Flag) : (s.push v).flag g = s.flag g := rfl
@[simp] theorem State.pull_readByte (s : State) (w' : Word) : (s.pull.2).readByte w' = s.readByte w' := rfl
@[simp] theorem State.pull_flag (s : State) (g : Flag) : (s.pull.2).flag g = s.flag g := rfl
@[simp] theorem State.pushWord_flag (s : State) (w : Word) (g : Flag) : (s.pushWord w).flag g = s.flag g := rfl
@[simp] theorem State.pullWord_readByte (s : State) (w' : Word) : (s.pullWord.2).readByte w' = s.readByte w' := rfl
@[simp] theorem State.pullWord_flag (s : State) (g : Flag) : (s.pullWord.2).flag g = s.flag g := rfl
@[simp] theorem State.noteFetch_reg' (s : State) (q : Reg8) : (noteFetch s).reg q = s.reg q := by cases q <;> rfl
@[simp] theorem State.noteFetch_readByte (s : State) (w' : Word) : (noteFetch s).readByte w' = s.readByte w' := rfl
@[simp] theorem State.noteFetch_flag (s : State) (g : Flag) : (noteFetch s).flag g = s.flag g := rfl
@[simp] theorem State.haltWith_reg' (s : State) (k : FaultKind) (op : Byte) (q : Reg8) : (haltWith k op s).reg q = s.reg q := by cases q <;> rfl
@[simp] theorem State.haltWith_readByte (s : State) (k : FaultKind) (op : Byte) (w' : Word) : (haltWith k op s).readByte w' = s.readByte w' := rfl
@[simp] theorem State.haltWith_flag (s : State) (k : FaultKind) (op : Byte) (g : Flag) : (haltWith k op s).flag g = s.flag g := rfl
@[simp] theorem State.setReg_readByte (s : State) (r : Reg8) (v : Byte) (w' : Word) : (s.setReg r v).readByte w' = s.readByte w' := by simp [State.readByte]
@[simp] theorem State.setReg_flag (s : State) (r : Reg8) (v : Byte) (g : Flag) : (s.setReg r v).flag g = s.flag g := by simp [State.flag]

end Sys2Proof.Machine
end

