-- ==== Sys2Proof/Laws/Ops.lean ====
section
/-! SUPPORT. What the stack engine, the trap entry and return, and the fault entry do, and how the frame words compose. -/

namespace Sys2Proof.Machine

open Sys2Proof

/-! ## The frame words -/

theorem StatusKept.refl {w : List Flag} {s t : State} (h : t.p = s.p) : StatusKept w s t := fun k _ _ => by rw [h]

theorem StatusKept.setFlag {w : List Flag} {s t : State} {f : Flag} (v : Bool) (hf : f ∈ w) (h : StatusKept w s t) :
    StatusKept w s (t.setFlag f v) := fun k hk hw => by
  rw [State.setFlag_p, putFlag_bit _ _ _ hk, if_neg (hw f hf), h k hk hw]

theorem StatusKept.setNZ {w : List Flag} {s t : State} (r : Byte) (hn : Flag.n ∈ w) (hz : Flag.z ∈ w)
    (h : StatusKept w s t) : StatusKept w s (t.setNZ r) := (h.setFlag _ hz).setFlag _ hn

theorem StatusKept.of_p {w : List Flag} {s t u : State} (h : StatusKept w s t) (e : u.p = t.p) : StatusKept w s u :=
  fun k hk hw => by rw [e, h k hk hw]

theorem MemKept.refl {w : List Word} {s t : State} (h : t.mem = s.mem) : MemKept w s t := fun a _ => by
  rw [State.readByte_eq, State.readByte_eq, h]

theorem MemKept.writeByte {w : List Word} {s t : State} {a : Word} (v : Byte) (ha : a ∈ w) (h : MemKept w s t) :
    MemKept w s (t.writeByte a v) := fun b hb => by
  rw [State.writeByte_read_other v (fun e : b = a => hb (e ▸ ha)), h b hb]

theorem MemKept.of_mem {w : List Word} {s t u : State} (h : MemKept w s t) (e : u.mem = t.mem) : MemKept w s u :=
  fun a ha => by rw [State.readByte_eq, e, ← State.readByte_eq, h a ha]

theorem RegsKept.of_fields {w : List Reg8} {s t : State} (ha : Reg8.a ∉ w → t.a = s.a) (hx : Reg8.x ∉ w → t.x = s.x)
    (hy : Reg8.y ∉ w → t.y = s.y) (hs : Reg8.s ∉ w → t.s = s.s) : RegsKept w s t
  | .a, h => ha h
  | .x, h => hx h
  | .y, h => hy h
  | .s, h => hs h

theorem RegsKept.refl {w : List Reg8} {s t : State} (ha : t.a = s.a) (hx : t.x = s.x) (hy : t.y = s.y) (hs : t.s = s.s) :
    RegsKept w s t := RegsKept.of_fields (fun _ => ha) (fun _ => hx) (fun _ => hy) (fun _ => hs)

theorem RegsKept.setReg {w : List Reg8} {s t : State} {r : Reg8} (v : Byte) (hr : r ∈ w) (h : RegsKept w s t) :
    RegsKept w s (t.setReg r v) := fun q hq => by
  rw [State.setReg_reg, if_neg (fun e : q = r => hq (e ▸ hr)), h q hq]

theorem RegsKept.of_reg {w : List Reg8} {s t u : State} (h : RegsKept w s t) (e : ∀ q, u.reg q = t.reg q) :
    RegsKept w s u := fun q hq => by rw [e q, h q hq]

/-- The general flag update answers for any state with the same P. -/
theorem FlagsOf.of_p {r : Byte} {t u : State} (h : FlagsOf r t) (e : u.p = t.p) : FlagsOf r u := by
  unfold FlagsOf State.flag at *
  rw [e]
  exact h

/-- The general flag update, read off P. -/
theorem FlagsOf.of_putFlag {r p : Byte} {u : State}
    (h : u.p = putFlag (putFlag p .z (r == 0x00#8)) .n (r.getLsbD 7)) : FlagsOf r u := by
  have f : ∀ g, u.flag g = getFlag (putFlag (putFlag p .z (r == 0x00#8)) .n (r.getLsbD 7)) g := fun g => by
    rw [← h]
    rfl
  constructor
  · rw [f, getFlag_putFlag, getFlag_putFlag, byte_beq_zero]
    simp
  · rw [f, getFlag_putFlag, if_pos rfl, byte_bit7]

/-! ## The stack engine (20_memory.md R66–R69) -/

/-- Push: the byte at `0x0100 | S`, every other address as before, S down by one, the form kept. -/
theorem State.push_spec {s : State} (v : Byte) (h : s.mem.wf = true) :
    (s.push v).readByte (stackAddress s.s) = v ∧ MemKept [stackAddress s.s] s (s.push v) ∧ (s.push v).mem.wf = true :=
  ⟨State.writeByte_read_self (stackAddress s.s) v h,
    (MemKept.writeByte v (by simp) (MemKept.refl rfl)).of_mem rfl, State.writeByte_wf (stackAddress s.s) v h⟩

/-- PushWord: high byte, then low byte below it, every other address as before, S down by two, the form kept. -/
theorem State.pushWord_spec {s : State} (w : Word) (h : s.mem.wf = true) :
    (s.pushWord w).readByte (stackAddress s.s) = hiByte w ∧
    (s.pushWord w).readByte (stackAddress (s.s - 1#8)) = loByte w ∧
    MemKept [stackAddress s.s, stackAddress (s.s - 1#8)] s (s.pushWord w) ∧ (s.pushWord w).mem.wf = true := by
  have h1 := State.push_spec (hiByte w) h
  have h2 := State.push_spec (s := s.push (hiByte w)) (loByte w) h1.2.2
  rw [State.push_s] at h2
  refine ⟨?_, h2.1, fun a ha => ?_, h2.2.2⟩
  · rw [State.pushWord, h2.2.1 _ (by
      simp only [List.mem_singleton]
      exact fun e => absurd (stackAddress_inj e) (by bv_omega)), h1.1]
  · simp only [List.mem_cons, List.not_mem_nil, or_false, not_or] at ha
    rw [State.pushWord, h2.2.1 a (by simpa using ha.2), h1.2.1 a (by simpa using ha.1)]

/-! ## Trap entry and return, fault entry (60_exceptions.md R341, R349–R350) -/

/-- Trap entry, every field but P and the bytes of memory. -/
theorem takeTrap_fields (base : Nat) (s : State) :
    (takeTrap base s).a = s.a ∧ (takeTrap base s).x = s.x ∧ (takeTrap base s).y = s.y ∧
    (takeTrap base s).s = s.s - 3#8 ∧ (takeTrap base s).p = putFlag s.p .i true ∧
    (takeTrap base s).cyclesLast = BitVec.ofNat 8 base ∧ ControlKept s (takeTrap base s) := by
  simp only [takeTrap, ControlKept, State.setCycles_a, State.setPc_a, State.setFlag_a, State.push_a, State.pushWord_a]
  simp
  bv_omega

/-- Trap entry, memory: the three bytes it pushes, and no other. -/
theorem takeTrap_memory (base : Nat) {s : State} (h : s.mem.wf = true) :
    (takeTrap base s).readByte (stackAddress s.s) = hiByte (s.pc + 2#16) ∧
    (takeTrap base s).readByte (stackAddress (s.s - 1#8)) = loByte (s.pc + 2#16) ∧
    (takeTrap base s).readByte (stackAddress (s.s - 2#8)) = pushImage s.p ∧
    MemKept [stackAddress s.s, stackAddress (s.s - 1#8), stackAddress (s.s - 2#8)] s (takeTrap base s) ∧
    (takeTrap base s).mem.wf = true := by
  have hw := State.pushWord_spec (s.pc + 2#16) h
  have e2 : (s.pushWord (s.pc + 2#16)).s = s.s - 2#8 := by rw [State.pushWord_s]; bv_omega
  have hp := State.push_spec (s := s.pushWord (s.pc + 2#16)) (pushImage s.p) hw.2.2.2
  rw [e2] at hp
  have e : ∀ a, (takeTrap base s).readByte a = ((s.pushWord (s.pc + 2#16)).push (pushImage s.p)).readByte a := fun _ => rfl
  refine ⟨?_, ?_, hp.1, fun a ha => ?_, hp.2.2⟩
  · rw [e, hp.2.1 _ (by
      simp only [List.mem_singleton]
      exact fun e => absurd (stackAddress_inj e) (by bv_omega)), hw.1]
  · rw [e, hp.2.1 _ (by
      simp only [List.mem_singleton]
      exact fun e => absurd (stackAddress_inj e) (by bv_omega)), hw.2.1]
  · simp only [List.mem_cons, List.not_mem_nil, or_false, not_or] at ha
    rw [e, hp.2.1 a (by simpa using ha.2.2), hw.2.2.1 a (by simpa using ⟨ha.1, ha.2.1⟩)]

/-- The BRK vector lies outside the stack page, so the pushes do not reach it. -/
theorem takeTrap_pc (base : Nat) {s : State} (h : s.mem.wf = true) :
    (takeTrap base s).pc = s.readWord Config.brkVector := by
  have hm := (takeTrap_memory base h).2.2.2.1
  have out : ∀ a : Word, a = 0xFFFE#16 ∨ a = 0xFFFF#16 → (takeTrap base s).readByte a = s.readByte a := fun a ha =>
    hm a (by
      simp only [List.mem_cons, List.not_mem_nil, or_false, not_or]
      have ne : ∀ sp : Byte, a ≠ stackAddress sp := fun sp e => by
        have := congrArg BitVec.toNat e
        have hs := sp.isLt
        rw [stackAddress_toNat] at this
        rcases ha with rfl | rfl <;> simp at this <;> omega
      exact ⟨ne _, ne _, ne _⟩)
  change wordOf ((takeTrap base s).readByte 0xFFFE#16) ((takeTrap base s).readByte 0xFFFF#16) = _
  rw [out _ (Or.inl rfl), out _ (Or.inr rfl)]
  rfl

/-- Trap return, every field. -/
theorem returnFromTrap_fields (base : Nat) (s : State) :
    (returnFromTrap base s).a = s.a ∧ (returnFromTrap base s).x = s.x ∧ (returnFromTrap base s).y = s.y ∧
    (returnFromTrap base s).s = s.s + 3#8 ∧
    (returnFromTrap base s).p = statusFromByte (s.readByte (stackAddress (s.s + 1#8))) ∧
    (returnFromTrap base s).pc =
      wordOf (s.readByte (stackAddress (s.s + 2#8))) (s.readByte (stackAddress (s.s + 3#8))) ∧
    (returnFromTrap base s).mem = s.mem ∧ (returnFromTrap base s).cyclesLast = BitVec.ofNat 8 base ∧
    ControlKept s (returnFromTrap base s) := by
  have e2 : s.s + 1#8 + 1#8 = s.s + 2#8 := by bv_omega
  have e3 : s.s + 2#8 + 1#8 = s.s + 3#8 := by bv_omega
  simp only [returnFromTrap, ControlKept, State.pullWord_word, State.pull_byte, State.pull_readByte,
    State.writeP_readByte, State.setCycles_pc, State.setPc_pc, State.writeP_s, State.pull_s]
  simp [e2, e3]

end Sys2Proof.Machine
end

