-- ==== Sys2Proof/Laws/Exec.lean ====
section
/-! SUPPORT. One lemma per shared operation of the families: everything it can do, with its frame, so that a proof about an instruction cites it instead of unfolding the operation. -/

namespace Sys2Proof.Machine

open Sys2Proof

/-- What an instruction that goes on past its own bytes leaves alone: only `regs`, `flags` and `stored` may change, and the
control state and the parameter stay. -/
structure Frame (regs : List Reg8) (flags : List Flag) (stored : List Word) (s t : State) : Prop where
  regs    : RegsKept regs s t
  status  : StatusKept flags s t
  memory  : MemKept stored s t
  control : ControlKept s t

theorem load_spec (r : Reg8) (m : MemOperand) (base : Nat) (s : State) :
    (load r m base s).reg r = operandByte m s ∧ FlagsOf (operandByte m s) (load r m base s) ∧
    (load r m base s).pc = s.pc + BitVec.ofNat 16 m.mode.length ∧
    (load r m base s).cyclesLast = BitVec.ofNat 8 (base + pageExtra m s) ∧ (load r m base s).mem = s.mem ∧
    Frame [r] [.n, .z] [] s (load r m base s) where
  left := by simp [load, State.setReg_reg]
  right := ⟨
    FlagsOf.of_putFlag (by simp only [load, State.retire_p, State.setNZ_p]; rfl),
    by simp [load],
    by simp [load], by simp [load],
    fun q hq => by simp [load, State.setReg_reg, List.ne_of_not_mem_cons hq],
    fun k hk hw => by simp [load, putFlag_bit _ _ _ hk, hw .n (by simp), hw .z (by simp)],
    MemKept.refl (by simp [load]), by simp [load, ControlKept]⟩

theorem store_spec (r : Reg8) (m : MemOperand) (base : Nat) {s : State} (h : s.mem.wf = true) :
    (store r m base s).readByte (effectiveAddress m s) = s.reg r ∧
    (store r m base s).pc = s.pc + BitVec.ofNat 16 m.mode.length ∧
    (store r m base s).cyclesLast = BitVec.ofNat 8 base ∧ (store r m base s).p = s.p ∧
    (store r m base s).mem.wf = true ∧ Frame [] [] [effectiveAddress m s] s (store r m base s) :=
  ⟨State.writeByte_read_self _ _ h, by simp [store], by simp [store], by simp [store],
    State.writeByte_wf _ _ h, RegsKept.refl (by simp [store]) (by simp [store]) (by simp [store]) (by simp [store]),
    StatusKept.refl (by simp [store]), (MemKept.writeByte (a := effectiveAddress m s) (s.reg r) (by simp)
    (MemKept.refl (rfl : s.mem = s.mem))).of_mem (by simp [store]), by simp [store, ControlKept]⟩

theorem arithmetic_spec (r : ArithResult) (s : State) :
    (arithmetic r s).a = r.value ∧ (arithmetic r s).flag .c = r.carry ∧ (arithmetic r s).flag .v = r.overflow ∧
    FlagsOf r.value (arithmetic r s) ∧ (arithmetic r s).pc = s.pc ∧ (arithmetic r s).mem = s.mem ∧
    Frame [.a] [.n, .v, .z, .c] [] s (arithmetic r s) where
  left := rfl
  right := ⟨by simp [arithmetic, State.setNZ, State.setFlag_flag], by simp [arithmetic, State.setNZ, State.setFlag_flag],
    FlagsOf.of_putFlag (by simp only [arithmetic, State.setNZ_p]; rfl),
    by simp [arithmetic],
    by simp [arithmetic], RegsKept.of_fields (by simp) (fun _ => by simp [arithmetic]) (fun _ => by simp [arithmetic])
    (fun _ => by simp [arithmetic]),
    fun k hk hw => by simp [arithmetic, putFlag_bit _ _ _ hk, hw .n (by simp), hw .v (by simp), hw .z (by simp), hw .c (by simp)],
    MemKept.refl (by simp [arithmetic]), by simp [arithmetic, ControlKept]⟩

/-- The end of an instruction writes PC and the cost, neither of which a frame names. -/
theorem Frame.retire {w : List Reg8} {f : List Flag} {st : List Word} {s t : State} (n c : Nat) (h : Frame w f st s t) :
    Frame w f st s (t.retire n c) :=
  ⟨h.regs.of_reg (fun q => by simp), h.status.of_p (by simp), h.memory.of_mem (by simp), by
    simpa [ControlKept] using h.control⟩

theorem addWithCarry_spec (m : MemOperand) (base : Nat) (s : State) :
    (addWithCarry m base s).a = (addBytes s.a (operandByte m s) (s.flag .c)).value ∧
    (addWithCarry m base s).flag .c = (addBytes s.a (operandByte m s) (s.flag .c)).carry ∧
    (addWithCarry m base s).flag .v = (addBytes s.a (operandByte m s) (s.flag .c)).overflow ∧
    FlagsOf (addBytes s.a (operandByte m s) (s.flag .c)).value (addWithCarry m base s) ∧
    (addWithCarry m base s).pc = s.pc + BitVec.ofNat 16 m.mode.length ∧
    (addWithCarry m base s).cyclesLast = BitVec.ofNat 8 (base + pageExtra m s) ∧ (addWithCarry m base s).mem = s.mem ∧
    Frame [.a] [.n, .v, .z, .c] [] s (addWithCarry m base s) := by
  have h := arithmetic_spec (addBytes s.a (operandByte m s) (s.flag .c)) s
  exact ⟨by simp [addWithCarry, h.1], by simp [addWithCarry, h.2.1], by simp [addWithCarry, h.2.2.1],
    h.2.2.2.1.of_p (by simp [addWithCarry]), by simp [addWithCarry, h.2.2.2.2.1], by simp [addWithCarry],
    by simp [addWithCarry, h.2.2.2.2.2.1], h.2.2.2.2.2.2.retire _ _⟩

theorem subtractWithBorrow_spec (m : MemOperand) (base : Nat) (s : State) :
    (subtractWithBorrow m base s).a = (subBytes s.a (operandByte m s) (s.flag .c)).value ∧
    (subtractWithBorrow m base s).flag .c = (subBytes s.a (operandByte m s) (s.flag .c)).carry ∧
    (subtractWithBorrow m base s).flag .v = (subBytes s.a (operandByte m s) (s.flag .c)).overflow ∧
    FlagsOf (subBytes s.a (operandByte m s) (s.flag .c)).value (subtractWithBorrow m base s) ∧
    (subtractWithBorrow m base s).pc = s.pc + BitVec.ofNat 16 m.mode.length ∧
    (subtractWithBorrow m base s).cyclesLast = BitVec.ofNat 8 (base + pageExtra m s) ∧
    (subtractWithBorrow m base s).mem = s.mem ∧ Frame [.a] [.n, .v, .z, .c] [] s (subtractWithBorrow m base s) := by
  have h := arithmetic_spec (subBytes s.a (operandByte m s) (s.flag .c)) s
  exact ⟨by simp [subtractWithBorrow, h.1], by simp [subtractWithBorrow, h.2.1], by simp [subtractWithBorrow, h.2.2.1],
    h.2.2.2.1.of_p (by simp [subtractWithBorrow]), by simp [subtractWithBorrow, h.2.2.2.2.1],
    by simp [subtractWithBorrow], by simp [subtractWithBorrow, h.2.2.2.2.2.1], h.2.2.2.2.2.2.retire _ _⟩

theorem logic_spec (f : Byte → Byte → Byte) (m : MemOperand) (base : Nat) (s : State) :
    (logic f m base s).a = f s.a (operandByte m s) ∧ FlagsOf (f s.a (operandByte m s)) (logic f m base s) ∧
    (logic f m base s).pc = s.pc + BitVec.ofNat 16 m.mode.length ∧
    (logic f m base s).cyclesLast = BitVec.ofNat 8 (base + pageExtra m s) ∧ (logic f m base s).mem = s.mem ∧
    Frame [.a] [.n, .z] [] s (logic f m base s) :=
  ⟨by simp [logic],
    FlagsOf.of_putFlag (by simp only [logic, State.retire_p, State.setNZ_p]; rfl),
    by simp [logic],
    by simp [logic], by simp [logic],
    RegsKept.of_fields (by simp) (fun _ => by simp [logic]) (fun _ => by simp [logic]) (fun _ => by simp [logic]),
    fun k hk hw => by simp [logic, putFlag_bit _ _ _ hk, hw .n (by simp), hw .z (by simp)],
    MemKept.refl (by simp [logic]), by simp [logic, ControlKept]⟩

theorem bitTest_spec (m : MemOperand) (base : Nat) (s : State) :
    (bitTest m base s).flag .z = (s.a &&& operandByte m s == 0x00#8) ∧
    (bitTest m base s).flag .n = (operandByte m s).getLsbD 7 ∧ (bitTest m base s).flag .v = (operandByte m s).getLsbD 6 ∧
    (bitTest m base s).pc = s.pc + BitVec.ofNat 16 m.mode.length ∧
    (bitTest m base s).cyclesLast = BitVec.ofNat 8 base ∧ (bitTest m base s).mem = s.mem ∧
    Frame [] [.n, .v, .z] [] s (bitTest m base s) where
  left := by rw [bitTest, State.retire_flag, State.setFlag_flag, State.setFlag_flag, State.setFlag_flag]; simp
  right := ⟨by rw [bitTest, State.retire_flag, State.setFlag_flag, State.setFlag_flag]; simp,
    by rw [bitTest, State.retire_flag, State.setFlag_flag]; simp, by simp [bitTest], by simp [bitTest],
    by simp [bitTest], RegsKept.refl (by simp [bitTest]) (by simp [bitTest]) (by simp [bitTest]) (by simp [bitTest]),
    fun k hk hw => by simp [bitTest, putFlag_bit _ _ _ hk, hw .n (by simp), hw .v (by simp), hw .z (by simp)],
    MemKept.refl (by simp [bitTest]), by simp [bitTest, ControlKept]⟩

theorem shiftAccumulator_spec (f : Byte → Bool → ShiftResult) (base : Nat) (s : State) :
    (shiftAccumulator f base s).a = (f s.a (s.flag .c)).value ∧
    (shiftAccumulator f base s).flag .c = (f s.a (s.flag .c)).carry ∧
    FlagsOf (f s.a (s.flag .c)).value (shiftAccumulator f base s) ∧
    (shiftAccumulator f base s).pc = s.pc + 1#16 ∧ (shiftAccumulator f base s).cyclesLast = BitVec.ofNat 8 base ∧
    (shiftAccumulator f base s).mem = s.mem ∧ Frame [.a] [.n, .z, .c] [] s (shiftAccumulator f base s) :=
  ⟨by simp [shiftAccumulator], by simp [shiftAccumulator, State.setNZ, State.setFlag_flag],
    FlagsOf.of_putFlag (by simp only [shiftAccumulator, State.retire_p, State.setNZ_p]; rfl),
    by simp [shiftAccumulator], by simp [shiftAccumulator], by simp [shiftAccumulator],
    RegsKept.of_fields (by simp) (fun _ => by simp [shiftAccumulator]) (fun _ => by simp [shiftAccumulator])
    (fun _ => by simp [shiftAccumulator]),
    fun k hk hw => by simp [shiftAccumulator, putFlag_bit _ _ _ hk, hw .n (by simp), hw .z (by simp), hw .c (by simp)],
    MemKept.refl (by simp [shiftAccumulator]),
    by simp [shiftAccumulator, ControlKept]⟩

theorem shiftMemory_spec (f : Byte → Bool → ShiftResult) (m : MemOperand) (base : Nat) {s : State} (h : s.mem.wf = true) :
    (shiftMemory f m base s).readByte (effectiveAddress m s) = (f (operandByte m s) (s.flag .c)).value ∧
    (shiftMemory f m base s).flag .c = (f (operandByte m s) (s.flag .c)).carry ∧
    FlagsOf (f (operandByte m s) (s.flag .c)).value (shiftMemory f m base s) ∧
    (shiftMemory f m base s).pc = s.pc + BitVec.ofNat 16 m.mode.length ∧
    (shiftMemory f m base s).cyclesLast = BitVec.ofNat 8 base ∧ (shiftMemory f m base s).mem.wf = true ∧
    Frame [] [.n, .z, .c] [effectiveAddress m s] s (shiftMemory f m base s) :=
  ⟨State.writeByte_read_self _ _ h, by simp [shiftMemory, State.setNZ, State.setFlag_flag],
    FlagsOf.of_putFlag (by simp only [shiftMemory, State.retire_p, State.setNZ_p]; rfl),
    by simp [shiftMemory], by simp [shiftMemory], State.writeByte_wf _ _ h, RegsKept.refl (by simp [shiftMemory])
    (by simp [shiftMemory]) (by simp [shiftMemory]) (by simp [shiftMemory]),
    fun k hk hw => by simp [shiftMemory, putFlag_bit _ _ _ hk, hw .n (by simp), hw .z (by simp), hw .c (by simp)],
    (MemKept.writeByte (a := effectiveAddress m s) (f (operandByte m s) (s.flag .c)).value (by simp)
    (MemKept.refl (rfl : s.mem = s.mem))).of_mem (by simp [shiftMemory]),
    by simp [shiftMemory, ControlKept]⟩

theorem compareRegister_spec (r : Reg8) (m : MemOperand) (base : Nat) (s : State) :
    (compareRegister r m base s).flag .c = decide (operandByte m s ≤ s.reg r) ∧
    FlagsOf (s.reg r - operandByte m s) (compareRegister r m base s) ∧
    (compareRegister r m base s).pc = s.pc + BitVec.ofNat 16 m.mode.length ∧
    (compareRegister r m base s).cyclesLast = BitVec.ofNat 8 (base + pageExtra m s) ∧
    (compareRegister r m base s).mem = s.mem ∧ Frame [] [.n, .z, .c] [] s (compareRegister r m base s) :=
  ⟨by simp [compareRegister, State.setNZ, State.setFlag_flag],
    FlagsOf.of_putFlag (by simp only [compareRegister, State.retire_p, State.setNZ_p]; rfl),
    by simp [compareRegister], by simp [compareRegister], by simp [compareRegister],
    RegsKept.refl (by simp [compareRegister]) (by simp [compareRegister]) (by simp [compareRegister])
    (by simp [compareRegister]),
    fun k hk hw => by simp [compareRegister, putFlag_bit _ _ _ hk, hw .n (by simp), hw .z (by simp), hw .c (by simp)],
    MemKept.refl (by simp [compareRegister]), by simp [compareRegister, ControlKept]⟩

theorem modifyMemory_spec (f : Byte → Byte) (m : MemOperand) (base : Nat) {s : State} (h : s.mem.wf = true) :
    (modifyMemory f m base s).readByte (effectiveAddress m s) = f (operandByte m s) ∧
    FlagsOf (f (operandByte m s)) (modifyMemory f m base s) ∧
    (modifyMemory f m base s).pc = s.pc + BitVec.ofNat 16 m.mode.length ∧
    (modifyMemory f m base s).cyclesLast = BitVec.ofNat 8 base ∧ (modifyMemory f m base s).mem.wf = true ∧
    Frame [] [.n, .z] [effectiveAddress m s] s (modifyMemory f m base s) :=
  ⟨State.writeByte_read_self _ _ h,
    FlagsOf.of_putFlag (by simp only [modifyMemory, State.retire_p, State.setNZ_p]; rfl),
    by simp [modifyMemory], by simp [modifyMemory], State.writeByte_wf _ _ h,
    RegsKept.refl (by simp [modifyMemory]) (by simp [modifyMemory]) (by simp [modifyMemory])
    (by simp [modifyMemory]),
    fun k hk hw => by simp [modifyMemory, putFlag_bit _ _ _ hk, hw .n (by simp), hw .z (by simp)],
    (MemKept.writeByte (a := effectiveAddress m s) (f (operandByte m s)) (by simp)
    (MemKept.refl (rfl : s.mem = s.mem))).of_mem (by simp [modifyMemory]), by simp [modifyMemory, ControlKept]⟩

theorem modifyRegister_spec (f : Byte → Byte) (r : Reg8) (base : Nat) (s : State) :
    (modifyRegister f r base s).reg r = f (s.reg r) ∧ FlagsOf (f (s.reg r)) (modifyRegister f r base s) ∧
    (modifyRegister f r base s).pc = s.pc + 1#16 ∧ (modifyRegister f r base s).cyclesLast = BitVec.ofNat 8 base ∧
    (modifyRegister f r base s).mem = s.mem ∧ Frame [r] [.n, .z] [] s (modifyRegister f r base s) where
  left := by simp [modifyRegister, State.setReg_reg]
  right := ⟨
    FlagsOf.of_putFlag (by simp only [modifyRegister, State.retire_p, State.setNZ_p]; rfl),
    by simp [modifyRegister], by simp [modifyRegister], by simp [modifyRegister],
    fun q hq => by simp [modifyRegister, State.setReg_reg, List.ne_of_not_mem_cons hq],
    fun k hk hw => by simp [modifyRegister, putFlag_bit _ _ _ hk, hw .n (by simp), hw .z (by simp)],
    MemKept.refl (by simp [modifyRegister]),
    by simp [modifyRegister, ControlKept]⟩

theorem branch_spec (f : Flag) (wanted : Bool) (rel : Byte) (base : Nat) (s : State) :
    (branch f wanted rel base s).pc = (if s.flag f = wanted then branchTarget s.pc rel else s.pc + 2#16) ∧
    (branch f wanted rel base s).cyclesLast = BitVec.ofNat 8
      (if s.flag f = wanted then
        base + 1 + if s.cfg.strictTiming && hiByte (branchTarget s.pc rel) != hiByte (s.pc + 2#16) then 1 else 0
      else base) ∧
    (branch f wanted rel base s).p = s.p ∧ (branch f wanted rel base s).mem = s.mem ∧
    Frame [] [] [] s (branch f wanted rel base s) := by
  unfold branch
  by_cases h : s.flag f = wanted
  · simp only [h, if_true]
    exact ⟨rfl, rfl, rfl, rfl, RegsKept.refl rfl rfl rfl rfl, StatusKept.refl rfl, MemKept.refl rfl, rfl, rfl, rfl, rfl⟩
  · simp only [h, if_false]
    exact ⟨rfl, rfl, rfl, rfl, RegsKept.refl rfl rfl rfl rfl, StatusKept.refl rfl, MemKept.refl rfl, rfl, rfl, rfl, rfl⟩

theorem jump_spec (m : MemOperand) (base : Nat) (s : State) :
    (jump m base s).pc = effectiveAddress m s ∧ (jump m base s).cyclesLast = BitVec.ofNat 8 base ∧
    (jump m base s).p = s.p ∧ (jump m base s).mem = s.mem ∧ Frame [] [] [] s (jump m base s) :=
  ⟨by simp [jump], by simp [jump], by simp [jump], by simp [jump], RegsKept.refl (by simp [jump]) (by simp [jump])
    (by simp [jump]) (by simp [jump]), StatusKept.refl (by simp [jump]), MemKept.refl (by simp [jump]),
    by simp [jump], by simp [jump], by simp [jump], rfl⟩

theorem callSubroutine_spec (m : MemOperand) (base : Nat) {s : State} (h : s.mem.wf = true) :
    (callSubroutine m base s).readByte (stackAddress s.s) = hiByte (s.pc + 2#16) ∧
    (callSubroutine m base s).readByte (stackAddress (s.s - 1#8)) = loByte (s.pc + 2#16) ∧
    (callSubroutine m base s).s = s.s - 2#8 ∧ (callSubroutine m base s).pc = effectiveAddress m s ∧
    (callSubroutine m base s).cyclesLast = BitVec.ofNat 8 base ∧ (callSubroutine m base s).p = s.p ∧
    (callSubroutine m base s).mem.wf = true ∧
    Frame [.s] [] [stackAddress s.s, stackAddress (s.s - 1#8)] s (callSubroutine m base s) :=
  have hw := State.pushWord_spec (s.pc + 2#16) h
  ⟨hw.1, hw.2.1, by simp [callSubroutine]; bv_omega, by simp [callSubroutine], by simp [callSubroutine],
    by simp [callSubroutine], hw.2.2.2,
    RegsKept.of_fields (fun _ => by simp [callSubroutine]) (fun _ => by simp [callSubroutine])
    (fun _ => by simp [callSubroutine]) (by simp), StatusKept.refl (by simp [callSubroutine]),
    hw.2.2.1.of_mem (by simp [callSubroutine]), by simp [callSubroutine, ControlKept]⟩

theorem returnFromSubroutine_spec (base : Nat) (s : State) :
    (returnFromSubroutine base s).pc =
      wordOf (s.readByte (stackAddress (s.s + 1#8))) (s.readByte (stackAddress (s.s + 2#8))) + 1#16 ∧
    (returnFromSubroutine base s).s = s.s + 2#8 ∧ (returnFromSubroutine base s).cyclesLast = BitVec.ofNat 8 base ∧
    (returnFromSubroutine base s).p = s.p ∧ (returnFromSubroutine base s).mem = s.mem ∧
    Frame [.s] [] [] s (returnFromSubroutine base s) := by
  have e : s.s + 1#8 + 1#8 = s.s + 2#8 := by bv_omega
  refine ⟨?_, ?_, by simp [returnFromSubroutine], by simp [returnFromSubroutine],
    by simp [returnFromSubroutine], RegsKept.of_fields (fun _ => by simp [returnFromSubroutine])
    (fun _ => by simp [returnFromSubroutine]) (fun _ => by simp [returnFromSubroutine]) (by simp),
    StatusKept.refl (by simp [returnFromSubroutine]), MemKept.refl (by simp [returnFromSubroutine]),
    by simp [returnFromSubroutine, ControlKept]⟩
  · simp [returnFromSubroutine, State.pullWord_word, e]
  · simp [returnFromSubroutine, e]

theorem pushAccumulator_spec (base : Nat) {s : State} (h : s.mem.wf = true) :
    (pushAccumulator base s).readByte (stackAddress s.s) = s.a ∧ (pushAccumulator base s).s = s.s - 1#8 ∧
    (pushAccumulator base s).pc = s.pc + 1#16 ∧ (pushAccumulator base s).cyclesLast = BitVec.ofNat 8 base ∧
    (pushAccumulator base s).p = s.p ∧ (pushAccumulator base s).mem.wf = true ∧
    Frame [.s] [] [stackAddress s.s] s (pushAccumulator base s) :=
  have hp := State.push_spec s.a h
  ⟨hp.1, by simp [pushAccumulator], by simp [pushAccumulator], by simp [pushAccumulator],
    by simp [pushAccumulator], hp.2.2, RegsKept.of_fields (fun _ => by simp [pushAccumulator])
    (fun _ => by simp [pushAccumulator]) (fun _ => by simp [pushAccumulator]) (by simp),
    StatusKept.refl (by simp [pushAccumulator]), hp.2.1.of_mem (by simp [pushAccumulator]),
    by simp [pushAccumulator, ControlKept]⟩

theorem pushStatus_spec (base : Nat) {s : State} (h : s.mem.wf = true) :
    (pushStatus base s).readByte (stackAddress s.s) = pushImage s.p ∧ (pushStatus base s).s = s.s - 1#8 ∧
    (pushStatus base s).pc = s.pc + 1#16 ∧ (pushStatus base s).cyclesLast = BitVec.ofNat 8 base ∧
    (pushStatus base s).p = s.p ∧ (pushStatus base s).mem.wf = true ∧
    Frame [.s] [] [stackAddress s.s] s (pushStatus base s) :=
  have hp := State.push_spec (pushImage s.p) h
  ⟨hp.1, by simp [pushStatus], by simp [pushStatus], by simp [pushStatus],
    by simp [pushStatus], hp.2.2, RegsKept.of_fields (fun _ => by simp [pushStatus]) (fun _ => by simp [pushStatus])
    (fun _ => by simp [pushStatus]) (by simp),
    StatusKept.refl (by simp [pushStatus]), hp.2.1.of_mem (by simp [pushStatus]), by simp [pushStatus, ControlKept]⟩

theorem pullAccumulator_spec (base : Nat) (s : State) :
    (pullAccumulator base s).a = s.readByte (stackAddress (s.s + 1#8)) ∧
    FlagsOf (s.readByte (stackAddress (s.s + 1#8))) (pullAccumulator base s) ∧
    (pullAccumulator base s).s = s.s + 1#8 ∧ (pullAccumulator base s).pc = s.pc + 1#16 ∧
    (pullAccumulator base s).cyclesLast = BitVec.ofNat 8 base ∧ (pullAccumulator base s).mem = s.mem ∧
    Frame [.a, .s] [.n, .z] [] s (pullAccumulator base s) :=
  ⟨by simp [pullAccumulator, State.pull_byte],
    FlagsOf.of_putFlag (by simp only [pullAccumulator, State.retire_p, State.setNZ_p]; rfl),
    by simp [pullAccumulator], by simp [pullAccumulator], by simp [pullAccumulator],
    by simp [pullAccumulator],
    RegsKept.of_fields (by simp) (fun _ => by simp [pullAccumulator]) (fun _ => by simp [pullAccumulator]) (by simp),
    fun k hk hw => by simp [pullAccumulator, putFlag_bit _ _ _ hk, hw .n (by simp), hw .z (by simp)],
    MemKept.refl (by simp [pullAccumulator]), by simp [pullAccumulator, ControlKept]⟩

theorem pullStatus_spec (base : Nat) (s : State) :
    (pullStatus base s).p = statusFromByte (s.readByte (stackAddress (s.s + 1#8))) ∧
    (pullStatus base s).s = s.s + 1#8 ∧ (pullStatus base s).pc = s.pc + 1#16 ∧
    (pullStatus base s).cyclesLast = BitVec.ofNat 8 base ∧ (pullStatus base s).mem = s.mem ∧
    RegsKept [.s] s (pullStatus base s) ∧ ControlKept s (pullStatus base s) :=
  ⟨by simp [pullStatus, State.pull_byte], by simp [pullStatus], by simp [pullStatus], by simp [pullStatus],
    by simp [pullStatus], RegsKept.of_fields (fun _ => by simp [pullStatus]) (fun _ => by simp [pullStatus])
    (fun _ => by simp [pullStatus]) (by simp), by simp [pullStatus, ControlKept]⟩

theorem writeFlag_spec (f : Flag) (v : Bool) (base : Nat) (s : State) :
    (writeFlag f v base s).flag f = v ∧ (writeFlag f v base s).pc = s.pc + 1#16 ∧
    (writeFlag f v base s).cyclesLast = BitVec.ofNat 8 base ∧ (writeFlag f v base s).mem = s.mem ∧
    Frame [] [f] [] s (writeFlag f v base s) :=
  ⟨by simp [writeFlag, State.setFlag_flag], by simp [writeFlag], by simp [writeFlag], by simp [writeFlag],
    RegsKept.refl (by simp [writeFlag]) (by simp [writeFlag]) (by simp [writeFlag]) (by simp [writeFlag]),
    fun k hk hw => by simp [writeFlag, putFlag_bit _ _ _ hk, hw f (by simp)], MemKept.refl (by simp [writeFlag]),
    by simp [writeFlag, ControlKept]⟩

theorem transfer_spec (src dst : Reg8) (base : Nat) (s : State) :
    (transfer src dst base s).reg dst = s.reg src ∧ FlagsOf (s.reg src) (transfer src dst base s) ∧
    (transfer src dst base s).pc = s.pc + 1#16 ∧ (transfer src dst base s).cyclesLast = BitVec.ofNat 8 base ∧
    (transfer src dst base s).mem = s.mem ∧ Frame [dst] [.n, .z] [] s (transfer src dst base s) where
  left := by simp [transfer, State.setReg_reg]
  right := ⟨
    FlagsOf.of_putFlag (by simp only [transfer, State.retire_p, State.setNZ_p]; rfl),
    by simp [transfer],
    by simp [transfer], by simp [transfer],
    fun q hq => by simp [transfer, State.setReg_reg, List.ne_of_not_mem_cons hq],
    fun k hk hw => by simp [transfer, putFlag_bit _ _ _ hk, hw .n (by simp), hw .z (by simp)],
    MemKept.refl (by simp [transfer]),
    by simp [transfer, ControlKept]⟩

theorem transferToStackPointer_spec (base : Nat) (s : State) :
    (transferToStackPointer base s).s = s.x ∧ (transferToStackPointer base s).pc = s.pc + 1#16 ∧
    (transferToStackPointer base s).cyclesLast = BitVec.ofNat 8 base ∧ (transferToStackPointer base s).p = s.p ∧
    (transferToStackPointer base s).mem = s.mem ∧ Frame [.s] [] [] s (transferToStackPointer base s) :=
  ⟨by simp [transferToStackPointer], by simp [transferToStackPointer], by simp [transferToStackPointer],
    by simp [transferToStackPointer], by simp [transferToStackPointer],
    RegsKept.of_fields (fun _ => by simp [transferToStackPointer]) (fun _ => by simp [transferToStackPointer])
    (fun _ => by simp [transferToStackPointer]) (by simp),
    StatusKept.refl (by simp [transferToStackPointer]), MemKept.refl (by simp [transferToStackPointer]),
    by simp [transferToStackPointer, ControlKept]⟩

end Sys2Proof.Machine
end

