-- ==== Sys2Proof/Laws/Effect.lean ====
section
/-! SUPPORT. The shapes an instruction's effect can have, said once: an inversion of `exec`, so that a proof about all instructions has one case per shared operation. -/

namespace Sys2Proof.Machine

open Sys2Proof

/-- The function from state to state that `exec i` computes, by the shared operation that it is, with the mnemonics that use
it and the table's cost. -/
inductive Effect (i : Instr) : (State → State) → Prop
  | load {r m base} : i.operand = .memory m → i.baseCycles = base →
      (i.mnemonic, r) ∈ [(Mnemonic.lda, Reg8.a), (.ldx, .x), (.ldy, .y)] → Effect i (load r m base)
  | store {r m base} : i.operand = .memory m → i.baseCycles = base →
      (i.mnemonic, r) ∈ [(Mnemonic.sta, Reg8.a), (.stx, .x), (.sty, .y)] → Effect i (store r m base)
  | adc {m base} : i.operand = .memory m → i.baseCycles = base → i.mnemonic = .adc → Effect i (addWithCarry m base)
  | sbc {m base} : i.operand = .memory m → i.baseCycles = base → i.mnemonic = .sbc →
      Effect i (subtractWithBorrow m base)
  | and {m base} : i.operand = .memory m → i.baseCycles = base → i.mnemonic = .and → Effect i (logic (· &&& ·) m base)
  | ora {m base} : i.operand = .memory m → i.baseCycles = base → i.mnemonic = .ora → Effect i (logic (· ||| ·) m base)
  | eor {m base} : i.operand = .memory m → i.baseCycles = base → i.mnemonic = .eor → Effect i (logic (· ^^^ ·) m base)
  | bit {m base} : i.operand = .memory m → i.baseCycles = base → i.mnemonic = .bit → Effect i (bitTest m base)
  | aslAcc {base} : i.operand = .accumulator → i.baseCycles = base → i.mnemonic = .asl →
      Effect i (shiftAccumulator shiftLeft base)
  | lsrAcc {base} : i.operand = .accumulator → i.baseCycles = base → i.mnemonic = .lsr →
      Effect i (shiftAccumulator shiftRight base)
  | rolAcc {base} : i.operand = .accumulator → i.baseCycles = base → i.mnemonic = .rol →
      Effect i (shiftAccumulator rotateLeft base)
  | rorAcc {base} : i.operand = .accumulator → i.baseCycles = base → i.mnemonic = .ror →
      Effect i (shiftAccumulator rotateRight base)
  | aslMem {m base} : i.operand = .memory m → i.baseCycles = base → i.mnemonic = .asl →
      Effect i (shiftMemory shiftLeft m base)
  | lsrMem {m base} : i.operand = .memory m → i.baseCycles = base → i.mnemonic = .lsr →
      Effect i (shiftMemory shiftRight m base)
  | rolMem {m base} : i.operand = .memory m → i.baseCycles = base → i.mnemonic = .rol →
      Effect i (shiftMemory rotateLeft m base)
  | rorMem {m base} : i.operand = .memory m → i.baseCycles = base → i.mnemonic = .ror →
      Effect i (shiftMemory rotateRight m base)
  | compare {r m base} : i.operand = .memory m → i.baseCycles = base →
      (i.mnemonic, r) ∈ [(Mnemonic.cmp, Reg8.a), (.cpx, .x), (.cpy, .y)] → Effect i (compareRegister r m base)
  | inc {m base} : i.operand = .memory m → i.baseCycles = base → i.mnemonic = .inc →
      Effect i (modifyMemory (· + 1#8) m base)
  | dec {m base} : i.operand = .memory m → i.baseCycles = base → i.mnemonic = .dec →
      Effect i (modifyMemory (· - 1#8) m base)
  | incReg {r base} : i.operand = .implied → i.baseCycles = base → (i.mnemonic, r) ∈ [(Mnemonic.inx, Reg8.x), (.iny, .y)] →
      Effect i (modifyRegister (· + 1#8) r base)
  | decReg {r base} : i.operand = .implied → i.baseCycles = base → (i.mnemonic, r) ∈ [(Mnemonic.dex, Reg8.x), (.dey, .y)] →
      Effect i (modifyRegister (· - 1#8) r base)
  | branch {f wanted rel base} : i.operand = .relative rel → i.baseCycles = base →
      branchCondition i.mnemonic = some (f, wanted) → Effect i (branch f wanted rel base)
  | jump {m base} : i.operand = .memory m → i.baseCycles = base → i.mnemonic = .jmp → Effect i (jump m base)
  | call {m base} : i.operand = .memory m → i.baseCycles = base → i.mnemonic = .jsr → Effect i (callSubroutine m base)
  | rts {base} : i.operand = .implied → i.baseCycles = base → i.mnemonic = .rts → Effect i (returnFromSubroutine base)
  | rti {base} : i.operand = .implied → i.baseCycles = base → i.mnemonic = .rti → Effect i (returnFromTrap base)
  | pha {base} : i.operand = .implied → i.baseCycles = base → i.mnemonic = .pha → Effect i (pushAccumulator base)
  | php {base} : i.operand = .implied → i.baseCycles = base → i.mnemonic = .php → Effect i (pushStatus base)
  | pla {base} : i.operand = .implied → i.baseCycles = base → i.mnemonic = .pla → Effect i (pullAccumulator base)
  | plp {base} : i.operand = .implied → i.baseCycles = base → i.mnemonic = .plp → Effect i (pullStatus base)
  | flag {f v base} : i.operand = .implied → i.baseCycles = base →
      (i.mnemonic, f, v) ∈ [(Mnemonic.sec, Flag.c, true), (.clc, .c, false), (.sed, .d, true), (.cld, .d, false),
        (.sei, .i, true), (.cli, .i, false), (.clv, .v, false)] → Effect i (writeFlag f v base)
  | transfer {src dst base} : i.operand = .implied → i.baseCycles = base →
      (i.mnemonic, src, dst) ∈ [(Mnemonic.tax, Reg8.a, Reg8.x), (.txa, .x, .a), (.tay, .a, .y), (.tya, .y, .a),
        (.tsx, .s, .x)] → Effect i (transfer src dst base)
  | txs {base} : i.operand = .implied → i.baseCycles = base → i.mnemonic = .txs → Effect i (transferToStackPointer base)
  | nop {base} : i.operand = .implied → i.baseCycles = base → i.mnemonic = .nop → Effect i (noOperation base)
  | brk {base} : i.operand = .implied → i.baseCycles = base → i.mnemonic = .brk → Effect i (takeTrap base)

/-- `exec` always answers a next state (60_exceptions.md R347), and its effect has one of the shapes. -/
theorem exec_effect (i : Instr) : ∃ f, (∀ s, exec i s = .next (f s)) ∧ Effect i f := by
  cases i <;> refine ⟨_, fun s => rfl, ?_⟩ <;>
    first
    | with_reducible refine .load ?_ ?_ ?_
    | with_reducible refine .store ?_ ?_ ?_
    | with_reducible refine .adc ?_ ?_ ?_
    | with_reducible refine .sbc ?_ ?_ ?_
    | with_reducible refine .and ?_ ?_ ?_
    | with_reducible refine .ora ?_ ?_ ?_
    | with_reducible refine .eor ?_ ?_ ?_
    | with_reducible refine .bit ?_ ?_ ?_
    | with_reducible refine .aslAcc ?_ ?_ ?_
    | with_reducible refine .lsrAcc ?_ ?_ ?_
    | with_reducible refine .rolAcc ?_ ?_ ?_
    | with_reducible refine .rorAcc ?_ ?_ ?_
    | with_reducible refine .aslMem ?_ ?_ ?_
    | with_reducible refine .lsrMem ?_ ?_ ?_
    | with_reducible refine .rolMem ?_ ?_ ?_
    | with_reducible refine .rorMem ?_ ?_ ?_
    | with_reducible refine .compare ?_ ?_ ?_
    | with_reducible refine .inc ?_ ?_ ?_
    | with_reducible refine .dec ?_ ?_ ?_
    | with_reducible refine .incReg ?_ ?_ ?_
    | with_reducible refine .decReg ?_ ?_ ?_
    | with_reducible refine .branch ?_ ?_ ?_
    | with_reducible refine .jump ?_ ?_ ?_
    | with_reducible refine .call ?_ ?_ ?_
    | with_reducible refine .rts ?_ ?_ ?_
    | with_reducible refine .rti ?_ ?_ ?_
    | with_reducible refine .pha ?_ ?_ ?_
    | with_reducible refine .php ?_ ?_ ?_
    | with_reducible refine .pla ?_ ?_ ?_
    | with_reducible refine .plp ?_ ?_ ?_
    | with_reducible refine .flag ?_ ?_ ?_
    | with_reducible refine .transfer ?_ ?_ ?_
    | with_reducible refine .txs ?_ ?_ ?_
    | with_reducible refine .nop ?_ ?_ ?_
    | with_reducible refine .brk ?_ ?_ ?_
  all_goals first
    | rfl
    | (dsimp only [Instr.baseCycles, Instr.opcode, encode, List.headD_cons]; rfl)
    | simp [Instr.mnemonic]

/-- The effect of an instruction that answers `t`. -/
theorem effect_of_exec {i : Instr} {s t : State} (h : exec i s = .next t) : ∃ f, t = f s ∧ Effect i f := by
  obtain ⟨f, hf, he⟩ := exec_effect i
  exact ⟨f, (Host.Outcome.next.inj ((hf s).symm.trans h)).symm, he⟩

end Sys2Proof.Machine
end

