-- ==== Sys2Proof/Laws/Step.lean ====
section
/-! SUPPORT. What one step can do, said once, and what an instruction that writes memory stores and the next fetch reads. -/

namespace Sys2Proof.Machine

open Sys2Proof

/-- `exec` always answers a next state (60_exceptions.md R347). -/
theorem exec_answers_next (i : Instr) (s : State) : ∃ t, exec i s = .next t :=
  let ⟨f, hf, _⟩ := exec_effect i
  ⟨f s, hf s⟩

/-- No effect touches the run state, the last opcode, the fault record or the parameter. -/
theorem effect_control {i : Instr} {f : State → State} (h : Effect i f) (s : State) : ControlKept s (f s) := by
  cases h with
  | load => exact (load_spec _ _ _ s).2.2.2.2.2.control
  | adc => exact (addWithCarry_spec _ _ s).2.2.2.2.2.2.2.control
  | sbc => exact (subtractWithBorrow_spec _ _ s).2.2.2.2.2.2.2.control
  | and | ora | eor => exact (logic_spec _ _ _ s).2.2.2.2.2.control
  | bit => exact (bitTest_spec _ _ s).2.2.2.2.2.2.control
  | aslAcc | lsrAcc | rolAcc | rorAcc => exact (shiftAccumulator_spec _ _ s).2.2.2.2.2.2.control
  | compare => exact (compareRegister_spec _ _ _ s).2.2.2.2.2.control
  | incReg | decReg => exact (modifyRegister_spec _ _ _ s).2.2.2.2.2.control
  | branch => exact (branch_spec _ _ _ _ s).2.2.2.2.control
  | rti => exact (returnFromTrap_fields _ s).2.2.2.2.2.2.2.2
  | pla => exact (pullAccumulator_spec _ s).2.2.2.2.2.2.control
  | plp => exact (pullStatus_spec _ s).2.2.2.2.2.2
  | flag => exact (writeFlag_spec _ _ _ s).2.2.2.2.control
  | transfer => exact (transfer_spec _ _ _ s).2.2.2.2.2.control
  | txs => exact (transferToStackPointer_spec _ s).2.2.2.2.2.control
  | brk => exact (takeTrap_fields _ s).2.2.2.2.2.2
  | store | aslMem | lsrMem | rolMem | rorMem | inc | dec | jump | call | rts | pha | php | nop =>
    simp [store, shiftMemory, modifyMemory, jump, callSubroutine, returnFromSubroutine, pushAccumulator, pushStatus,
      noOperation, ControlKept]

/-- A step that answers a next state was taken in `Ready`, and either ran the decoded instruction or took the fault entry on a
byte with no table entry. -/
theorem step_cases {s t : State} (h : step s = .next t) :
    s.runState = .ready ∧
    ((∃ i rest, decode (fetchBytes s) = .ok (i, rest) ∧ exec i (noteFetch s) = .next t) ∨
     (opcodeEntry (s.readByte s.pc) = none ∧ t = haltWith .unimplementedOpcode (s.readByte s.pc) (noteFetch s))) := by
  unfold step at h
  cases hr : s.runState with
  | uninitialized => simp [hr] at h
  | halted => simp [hr] at h
  | ready =>
    refine ⟨rfl, ?_⟩
    simp only [hr, runFetched] at h
    rcases decode_three (s.readByte s.pc) (s.readByte (s.pc + 1#16)) (s.readByte (s.pc + 2#16)) with
      ⟨hd, he⟩ | ⟨i, rest, e, hd, he⟩
    · right
      rw [fetchBytes, hd] at h
      exact ⟨he, (Host.Outcome.next.inj h).symm⟩
    · left
      rw [fetchBytes, hd] at h
      exact ⟨i, rest, hd, h⟩

/-- A step in `Ready` always answers a next state. -/
theorem step_ready {s : State} (h : s.runState = .ready) : ∃ t, step s = .next t := by
  unfold step runFetched
  rw [h]
  cases decode (fetchBytes s) with
  | ok r => exact exec_answers_next r.1 (noteFetch s)
  | error _ => exact ⟨_, rfl⟩

/-! ## What an instruction that writes memory stores -/

/-- ROL of a byte, as a number (44_shift_rotate.md R212). -/
theorem rotateLeft_toNat (v : Byte) (c : Bool) : (rotateLeft v c).value.toNat = (v.toNat * 2 + c.toNat) % 256 := by
  revert v; refine byte_forall fun n hn => ?_
  cases c <;> interval_cases n <;> decide

/-- ROR of a byte, as a number (R213). -/
theorem rotateRight_toNat (v : Byte) (c : Bool) : (rotateRight v c).value.toNat = v.toNat / 2 + 128 * c.toNat := by
  revert v; refine byte_forall fun n hn => ?_
  cases c <;> interval_cases n <;> decide

/-- A store in any mode: where PC goes, the byte stored, and no other byte changed. -/
theorem exec_store (i : Instr) (s : State) (r m) (hw : s.mem.wf = true) (ho : i.operand = .memory m)
    (h : (i.mnemonic, r) ∈ [(Mnemonic.sta, Reg8.a), (.stx, .x), (.sty, .y)]) :
    ∃ t, exec i s = .next t ∧ t.pc = s.pc + BitVec.ofNat 16 i.length ∧
      t.readByte (effectiveAddress m s) = s.reg r ∧ MemKept [effectiveAddress m s] s t := by
  have hl : i.length = m.mode.length := by unfold Instr.length; rw [ho]; rfl
  obtain ⟨f, hf, he⟩ := exec_effect i
  refine ⟨f s, hf s, ?_⟩
  rw [hl]
  simp only [List.mem_cons, Prod.mk.injEq, List.not_mem_nil, or_false] at h
  cases he
  case store r' m' b ho' _ hm =>
    rw [ho] at ho'; cases ho'
    have : r' = r := by rcases h with ⟨h, rfl⟩|⟨h, rfl⟩|⟨h, rfl⟩ <;> simpa [h] using hm
    subst this
    have := store_spec r' m b hw
    exact ⟨this.2.1, this.1, this.2.2.2.2.2.memory⟩
  all_goals (exfalso; rcases h with ⟨h, -⟩|⟨h, -⟩|⟨h, -⟩ <;> simp_all)

/-- A read-modify-write in any mode: where PC goes, the byte stored, and no other byte changed. -/
theorem exec_modify (i : Instr) (s : State) (m n) (hw : s.mem.wf = true) (ho : i.operand = .memory m)
    (h : (i.mnemonic, n) ∈ modifiedByte (s.readByte (effectiveAddress m s)).toNat (s.flag .c).toNat) :
    ∃ t, exec i s = .next t ∧ t.pc = s.pc + BitVec.ofNat 16 i.length ∧
      (t.readByte (effectiveAddress m s)).toNat = n ∧ MemKept [effectiveAddress m s] s t := by
  have hl : i.length = m.mode.length := by unfold Instr.length; rw [ho]; rfl
  have hob : ∀ op, m ≠ .immediate op := by
    rintro op rfl
    simp only [modifiedByte, List.mem_cons, Prod.mk.injEq, List.not_mem_nil, or_false] at h
    rcases h with h|h|h|h|h|h <;> (obtain ⟨h, -⟩ := h; cases i <;> simp [Instr.mnemonic] at h <;> cases ho)
  have hb : operandByte m s = s.readByte (effectiveAddress m s) := by
    cases m <;> first | rfl | exact absurd rfl (hob _)
  obtain ⟨f, hf, he⟩ := exec_effect i
  refine ⟨f s, hf s, ?_⟩
  simp only [modifiedByte, List.mem_cons, Prod.mk.injEq, List.not_mem_nil, or_false] at h
  rw [hl]
  cases he
  case aslMem ho' _ hm =>
    rw [ho] at ho'; cases ho'; simp [hm] at h
    refine ⟨(shiftMemory_spec _ m _ hw).2.2.2.1, ?_, (shiftMemory_spec _ m _ hw).2.2.2.2.2.2.memory⟩
    rw [(shiftMemory_spec _ m _ hw).1, hb, h]; rw [shiftLeft, BitVec.toNat_shiftLeft, Nat.shiftLeft_eq]
  case lsrMem ho' _ hm =>
    rw [ho] at ho'; cases ho'; simp [hm] at h
    refine ⟨(shiftMemory_spec _ m _ hw).2.2.2.1, ?_, (shiftMemory_spec _ m _ hw).2.2.2.2.2.2.memory⟩
    rw [(shiftMemory_spec _ m _ hw).1, hb, h]; rw [shiftRight, BitVec.toNat_ushiftRight, Nat.shiftRight_eq_div_pow]
  case rolMem ho' _ hm =>
    rw [ho] at ho'; cases ho'; simp [hm] at h
    refine ⟨(shiftMemory_spec _ m _ hw).2.2.2.1, ?_, (shiftMemory_spec _ m _ hw).2.2.2.2.2.2.memory⟩
    rw [(shiftMemory_spec _ m _ hw).1, hb, h]; exact rotateLeft_toNat _ _
  case rorMem ho' _ hm =>
    rw [ho] at ho'; cases ho'; simp [hm] at h
    refine ⟨(shiftMemory_spec _ m _ hw).2.2.2.1, ?_, (shiftMemory_spec _ m _ hw).2.2.2.2.2.2.memory⟩
    rw [(shiftMemory_spec _ m _ hw).1, hb, h]; exact rotateRight_toNat _ _
  case inc ho' _ hm =>
    rw [ho] at ho'; cases ho'; simp [hm] at h
    refine ⟨(modifyMemory_spec _ m _ hw).2.2.1, ?_, (modifyMemory_spec _ m _ hw).2.2.2.2.2.memory⟩
    rw [(modifyMemory_spec _ m _ hw).1, hb, h, BitVec.toNat_add]; rfl
  case dec ho' _ hm =>
    rw [ho] at ho'; cases ho'; simp [hm] at h
    refine ⟨(modifyMemory_spec _ m _ hw).2.2.1, ?_, (modifyMemory_spec _ m _ hw).2.2.2.2.2.memory⟩
    rw [(modifyMemory_spec _ m _ hw).1, hb, h, BitVec.toNat_sub]; simp; omega
  all_goals (exfalso; rcases h with ⟨h, -⟩|⟨h, -⟩|⟨h, -⟩|⟨h, -⟩|⟨h, -⟩|⟨h, -⟩ <;> simp_all)

/-- A byte of memory is what the fetch reads, wherever it lies in the three bytes from PC upward. -/
theorem fetchBytes_of_read (t : State) (a : Word) (v : Byte) (h : t.readByte a = v) :
    ∀ k, k < 3 → t.pc + BitVec.ofNat 16 k = a → ((fetchBytes t)[k]?).map BitVec.toNat = some v.toNat := by
  intro k hk e
  subst e; subst h
  have : k = 0 ∨ k = 1 ∨ k = 2 := by omega
  rcases this with rfl | rfl | rfl <;> simp [fetchBytes]

end Sys2Proof.Machine
end

