-- ==== Sys2Proof/Tests/Slice0.lean ====
section
/-! SUPPORT. The model's own tests: the well-formedness smoke test, every constructor's decoding, one step per instruction on the spec's vectors (95_test_vectors.md V1–V116, whose values come from the spec), the host's commands, and for every obligation with hypotheses a witness that meets them all together. -/

namespace Sys2Proof.Tests

open Sys2Proof Sys2Proof.Machine

/-! ## Helpers -/

/-- The launch state of 95_test_vectors.md section 1: the fixture defaults, an instruction's bytes at PC, and some cells. -/
def launch (pc : Word) (bytes : List Byte) (cells : List (Nat × Byte)) : State :=
  { a := 0x00#8, x := 0x00#8, y := 0x00#8, s := 0xFF#8, pc := pc, p := 0x20#8
    mem := cells.foldl (fun m c => m.write c.1 c.2) (Memory.load [] pc.toNat bytes)
    runState := .ready, lastOpcode := none, cyclesLast := 0x00#8, fault := none, cfg := {} }

/-- What one step makes of a state. -/
def after (s : State) (q : State → Bool) : Bool :=
  match step s with
  | .next t => q t
  | .fault _ => false
  | .refused _ => false

/-- Bytes decode to an instruction with nothing left over. -/
def decodesTo (bytes : List Byte) (i : Instr) : Bool :=
  match decode bytes with
  | .ok (j, rest) => j == i && rest.isEmpty
  | .error _ => false

/-- Every pair of a list does. -/
def allDecode (l : List (List Byte × Instr)) : Bool := l.all fun p => decodesTo p.1 p.2

/-- A state every byte of whose memory but the given ones is 0, at 0x0200. -/
def plain : State := launch 0x0200#16 [] []

/-! ## Well-formedness: the check refuses ill-formed pairs (30_encoding.md R96, R100) -/

theorem test_wf_refuses_sta_immediate : RawInstr.wellFormed ⟨.sta, .memory (.immediate 0x01#8)⟩ = false := by decide

theorem test_wf_refuses_inc_accumulator : RawInstr.wellFormed ⟨.inc, .accumulator⟩ = false := by decide

theorem test_wf_refuses_nop_relative : RawInstr.wellFormed ⟨.nop, .relative 0x02#8⟩ = false := by decide

theorem test_wf_refuses_lda_implied : RawInstr.wellFormed ⟨.lda, .implied⟩ = false := by decide

theorem test_wf_refuses_lda_indirect : RawInstr.wellFormed ⟨.lda, .memory (.indirect 0x1234#16)⟩ = false := by decide

theorem test_wf_refuses_ldx_zero_page_x : RawInstr.wellFormed ⟨.ldx, .memory (.zeroPageX 0x10#8)⟩ = false := by decide

theorem test_wf_accepts_ldx_zero_page_y : RawInstr.wellFormed ⟨.ldx, .memory (.zeroPageY 0x10#8)⟩ = true := by decide

/-! ## Decoding: every constructor's bytes written out from R95's map and R91's formats, two of each family bit by bit -/

theorem test_decode_loadStore1 : allDecode [
    ([0b10100001#8, 0x9C#8], .ldaIzx 0x9C#8), ([0b10100101#8, 0x9C#8], .ldaZp 0x9C#8),
    ([0xA9#8, 0x9C#8], .ldaImm 0x9C#8), ([0xAD#8, 0x34#8, 0x92#8], .ldaAbs 0x9234#16),
    ([0xB1#8, 0x9C#8], .ldaIzy 0x9C#8), ([0xB5#8, 0x9C#8], .ldaZpx 0x9C#8),
    ([0xB9#8, 0x34#8, 0x92#8], .ldaAby 0x9234#16), ([0xBD#8, 0x34#8, 0x92#8], .ldaAbx 0x9234#16),
    ([0xA2#8, 0x9C#8], .ldxImm 0x9C#8), ([0xA6#8, 0x9C#8], .ldxZp 0x9C#8),
    ([0xAE#8, 0x34#8, 0x92#8], .ldxAbs 0x9234#16), ([0xB6#8, 0x9C#8], .ldxZpy 0x9C#8),
    ([0xBE#8, 0x34#8, 0x92#8], .ldxAby 0x9234#16), ([0xA0#8, 0x9C#8], .ldyImm 0x9C#8),
    ([0xA4#8, 0x9C#8], .ldyZp 0x9C#8), ([0xAC#8, 0x34#8, 0x92#8], .ldyAbs 0x9234#16)] = true := by decide

theorem test_decode_loadStore2 : allDecode [
    ([0xB4#8, 0x9C#8], .ldyZpx 0x9C#8), ([0xBC#8, 0x34#8, 0x92#8], .ldyAbx 0x9234#16),
    ([0x81#8, 0x9C#8], .staIzx 0x9C#8), ([0x85#8, 0x9C#8], .staZp 0x9C#8),
    ([0x8D#8, 0x34#8, 0x92#8], .staAbs 0x9234#16), ([0x91#8, 0x9C#8], .staIzy 0x9C#8),
    ([0x95#8, 0x9C#8], .staZpx 0x9C#8), ([0x99#8, 0x34#8, 0x92#8], .staAby 0x9234#16),
    ([0x9D#8, 0x34#8, 0x92#8], .staAbx 0x9234#16), ([0x86#8, 0x9C#8], .stxZp 0x9C#8),
    ([0x8E#8, 0x34#8, 0x92#8], .stxAbs 0x9234#16), ([0x96#8, 0x9C#8], .stxZpy 0x9C#8),
    ([0x84#8, 0x9C#8], .styZp 0x9C#8), ([0x8C#8, 0x34#8, 0x92#8], .styAbs 0x9234#16),
    ([0x94#8, 0x9C#8], .styZpx 0x9C#8)] = true := by decide

theorem test_decode_arithLogic1 : allDecode [
    ([0b01100001#8, 0x9C#8], .adcIzx 0x9C#8), ([0b01100101#8, 0x9C#8], .adcZp 0x9C#8),
    ([0x69#8, 0x9C#8], .adcImm 0x9C#8), ([0x6D#8, 0x34#8, 0x92#8], .adcAbs 0x9234#16),
    ([0x71#8, 0x9C#8], .adcIzy 0x9C#8), ([0x75#8, 0x9C#8], .adcZpx 0x9C#8),
    ([0x79#8, 0x34#8, 0x92#8], .adcAby 0x9234#16), ([0x7D#8, 0x34#8, 0x92#8], .adcAbx 0x9234#16),
    ([0xE1#8, 0x9C#8], .sbcIzx 0x9C#8), ([0xE5#8, 0x9C#8], .sbcZp 0x9C#8), ([0xE9#8, 0x9C#8], .sbcImm 0x9C#8),
    ([0xED#8, 0x34#8, 0x92#8], .sbcAbs 0x9234#16), ([0xF1#8, 0x9C#8], .sbcIzy 0x9C#8),
    ([0xF5#8, 0x9C#8], .sbcZpx 0x9C#8), ([0xF9#8, 0x34#8, 0x92#8], .sbcAby 0x9234#16),
    ([0xFD#8, 0x34#8, 0x92#8], .sbcAbx 0x9234#16)] = true := by decide

theorem test_decode_arithLogic2 : allDecode [
    ([0x21#8, 0x9C#8], .andIzx 0x9C#8), ([0x25#8, 0x9C#8], .andZp 0x9C#8), ([0x29#8, 0x9C#8], .andImm 0x9C#8),
    ([0x2D#8, 0x34#8, 0x92#8], .andAbs 0x9234#16), ([0x31#8, 0x9C#8], .andIzy 0x9C#8),
    ([0x35#8, 0x9C#8], .andZpx 0x9C#8), ([0x39#8, 0x34#8, 0x92#8], .andAby 0x9234#16),
    ([0x3D#8, 0x34#8, 0x92#8], .andAbx 0x9234#16), ([0x01#8, 0x9C#8], .oraIzx 0x9C#8),
    ([0x05#8, 0x9C#8], .oraZp 0x9C#8), ([0x09#8, 0x9C#8], .oraImm 0x9C#8),
    ([0x0D#8, 0x34#8, 0x92#8], .oraAbs 0x9234#16), ([0x11#8, 0x9C#8], .oraIzy 0x9C#8),
    ([0x15#8, 0x9C#8], .oraZpx 0x9C#8), ([0x19#8, 0x34#8, 0x92#8], .oraAby 0x9234#16),
    ([0x1D#8, 0x34#8, 0x92#8], .oraAbx 0x9234#16)] = true := by decide

theorem test_decode_arithLogic3 : allDecode [
    ([0x41#8, 0x9C#8], .eorIzx 0x9C#8), ([0x45#8, 0x9C#8], .eorZp 0x9C#8), ([0x49#8, 0x9C#8], .eorImm 0x9C#8),
    ([0x4D#8, 0x34#8, 0x92#8], .eorAbs 0x9234#16), ([0x51#8, 0x9C#8], .eorIzy 0x9C#8),
    ([0x55#8, 0x9C#8], .eorZpx 0x9C#8), ([0x59#8, 0x34#8, 0x92#8], .eorAby 0x9234#16),
    ([0x5D#8, 0x34#8, 0x92#8], .eorAbx 0x9234#16), ([0x24#8, 0x9C#8], .bitZp 0x9C#8),
    ([0x2C#8, 0x34#8, 0x92#8], .bitAbs 0x9234#16)] = true := by decide

theorem test_decode_shift1 : allDecode [
    ([0b00000110#8, 0x9C#8], .aslZp 0x9C#8), ([0b00001010#8], .aslAcc),
    ([0x0E#8, 0x34#8, 0x92#8], .aslAbs 0x9234#16), ([0x16#8, 0x9C#8], .aslZpx 0x9C#8),
    ([0x1E#8, 0x34#8, 0x92#8], .aslAbx 0x9234#16), ([0x46#8, 0x9C#8], .lsrZp 0x9C#8), ([0x4A#8], .lsrAcc),
    ([0x4E#8, 0x34#8, 0x92#8], .lsrAbs 0x9234#16), ([0x56#8, 0x9C#8], .lsrZpx 0x9C#8),
    ([0x5E#8, 0x34#8, 0x92#8], .lsrAbx 0x9234#16), ([0x26#8, 0x9C#8], .rolZp 0x9C#8), ([0x2A#8], .rolAcc),
    ([0x2E#8, 0x34#8, 0x92#8], .rolAbs 0x9234#16), ([0x36#8, 0x9C#8], .rolZpx 0x9C#8),
    ([0x3E#8, 0x34#8, 0x92#8], .rolAbx 0x9234#16), ([0x66#8, 0x9C#8], .rorZp 0x9C#8)] = true := by decide

theorem test_decode_shift2 : allDecode [
    ([0x6A#8], .rorAcc), ([0x6E#8, 0x34#8, 0x92#8], .rorAbs 0x9234#16), ([0x76#8, 0x9C#8], .rorZpx 0x9C#8),
    ([0x7E#8, 0x34#8, 0x92#8], .rorAbx 0x9234#16)] = true := by decide

theorem test_decode_compareIncDec1 : allDecode [
    ([0b11000001#8, 0x9C#8], .cmpIzx 0x9C#8), ([0b11000101#8, 0x9C#8], .cmpZp 0x9C#8),
    ([0xC9#8, 0x9C#8], .cmpImm 0x9C#8), ([0xCD#8, 0x34#8, 0x92#8], .cmpAbs 0x9234#16),
    ([0xD1#8, 0x9C#8], .cmpIzy 0x9C#8), ([0xD5#8, 0x9C#8], .cmpZpx 0x9C#8),
    ([0xD9#8, 0x34#8, 0x92#8], .cmpAby 0x9234#16), ([0xDD#8, 0x34#8, 0x92#8], .cmpAbx 0x9234#16),
    ([0xE0#8, 0x9C#8], .cpxImm 0x9C#8), ([0xE4#8, 0x9C#8], .cpxZp 0x9C#8),
    ([0xEC#8, 0x34#8, 0x92#8], .cpxAbs 0x9234#16), ([0xC0#8, 0x9C#8], .cpyImm 0x9C#8),
    ([0xC4#8, 0x9C#8], .cpyZp 0x9C#8), ([0xCC#8, 0x34#8, 0x92#8], .cpyAbs 0x9234#16),
    ([0xE6#8, 0x9C#8], .incZp 0x9C#8), ([0xEE#8, 0x34#8, 0x92#8], .incAbs 0x9234#16)] = true := by decide

theorem test_decode_compareIncDec2 : allDecode [
    ([0xF6#8, 0x9C#8], .incZpx 0x9C#8), ([0xFE#8, 0x34#8, 0x92#8], .incAbx 0x9234#16),
    ([0xC6#8, 0x9C#8], .decZp 0x9C#8), ([0xCE#8, 0x34#8, 0x92#8], .decAbs 0x9234#16),
    ([0xD6#8, 0x9C#8], .decZpx 0x9C#8), ([0xDE#8, 0x34#8, 0x92#8], .decAbx 0x9234#16), ([0xE8#8], .inx),
    ([0xC8#8], .iny), ([0xCA#8], .dex), ([0x88#8], .dey)] = true := by decide

theorem test_decode_branch : allDecode [
    ([0b10010000#8, 0x9C#8], .bcc 0x9C#8), ([0b10110000#8, 0x9C#8], .bcs 0x9C#8), ([0xD0#8, 0x9C#8], .bne 0x9C#8),
    ([0xF0#8, 0x9C#8], .beq 0x9C#8), ([0x10#8, 0x9C#8], .bpl 0x9C#8), ([0x30#8, 0x9C#8], .bmi 0x9C#8),
    ([0x50#8, 0x9C#8], .bvc 0x9C#8), ([0x70#8, 0x9C#8], .bvs 0x9C#8)] = true := by decide

theorem test_decode_jump : allDecode [
    ([0b01001100#8, 0x34#8, 0x92#8], .jmpAbs 0x9234#16), ([0b01101100#8, 0x34#8, 0x92#8], .jmpInd 0x9234#16),
    ([0x20#8, 0x34#8, 0x92#8], .jsrAbs 0x9234#16), ([0x60#8], .rts), ([0x40#8], .rti)] = true := by decide

theorem test_decode_stack : allDecode [
    ([0b01001000#8], .pha), ([0b00001000#8], .php), ([0x68#8], .pla), ([0x28#8], .plp)] = true := by decide

theorem test_decode_flagsTransfer : allDecode [
    ([0b00111000#8], .sec), ([0b00011000#8], .clc), ([0xF8#8], .sed), ([0xD8#8], .cld), ([0x78#8], .sei),
    ([0x58#8], .cli), ([0xB8#8], .clv), ([0xAA#8], .tax), ([0x8A#8], .txa), ([0xA8#8], .tay), ([0x98#8], .tya),
    ([0xBA#8], .tsx), ([0x9A#8], .txs), ([0xEA#8], .nop), ([0x00#8], .brk)] = true := by decide

theorem test_decode_refuses_02 : decode [0x02#8, 0x00#8, 0x00#8] = .error (.unimplementedOpcode 0x02#8) := rfl

theorem test_decode_refuses_FF : decode [0xFF#8] = .error (.unimplementedOpcode 0xFF#8) := rfl

theorem test_decode_truncated : decode [0x4C#8, 0x34#8] = .error .truncated := rfl

theorem test_decode_leaves_the_rest : decode [0xA9#8, 0x05#8, 0xAA#8] = .ok (.ldaImm 0x05#8, [0xAA#8]) := rfl

/-- A table word with its bits numbered from the first byte's bit 0: 20 34 12 is 0x123420. -/
theorem test_table_word : decodeTableWord 24 0x123420 = some (.jsrAbs 0x1234#16) := rfl

/-- Bits above `nbits` are 0. -/
theorem test_table_word_short : decodeTableWord 8 0xFFFFAD = some (.ldaAbs 0x0000#16) := rfl

theorem test_fetch_word : after (State.reset.withFetchWord 16 0x05A9) (fun t => t.a == 0x05#8 && t.pc == 0x0002#16) = true := by
  decide

theorem test_fetch_word_wraps :
    after ({ State.reset with pc := 0xFFFF#16 }.withFetchWord 24 0x12344C) (fun t => t.pc == 0x1234#16) = true := by decide

/-! ## One step, on the spec's vectors (95_test_vectors.md section 3) -/

/-- V1 (R170): LDA #0: Z=1. -/
theorem test_V1_lda :
    after ({ launch 0x0200#16 [0xA9#8, 0x00#8] [] with a := 0x55#8 })
      (fun t => t.a == 0x00#8 && t.p == 0x22#8) = true := by decide

/-- V2 (R170): LDA #$80: N=1. -/
theorem test_V2_lda :
    after (launch 0x0200#16 [0xA9#8, 0x80#8] [])
      (fun t => t.a == 0x80#8 && t.p == 0xA0#8) = true := by decide

/-- V3 (R170): zero page. -/
theorem test_V3_lda :
    after (launch 0x0200#16 [0xA5#8, 0x10#8] [(0x0010, 0x7F#8)])
      (fun t => t.a == 0x7F#8 && t.pc == 0x0202#16 && t.cyclesLast == 3#8) = true := by decide

/-- V4 (R170): zp,X wraps to 0x01 (DOC §8). -/
theorem test_V4_lda :
    after ({ launch 0x0200#16 [0xB5#8, 0xFF#8] [(0x0001, 0x33#8)] with x := 0x02#8 })
      (fun t => t.a == 0x33#8 && t.pc == 0x0202#16 && t.cyclesLast == 4#8) = true := by decide

/-- V5 (R170): abs,X page cross, default timing. -/
theorem test_V5_lda :
    after ({ launch 0x0200#16 [0xBD#8, 0xFF#8, 0x12#8] [(0x1300, 0x44#8)] with x := 0x01#8 })
      (fun t => t.a == 0x44#8 && t.pc == 0x0203#16 && t.cyclesLast == 4#8) = true := by decide

/-- V6 (R170): same, STRICT_TIMING: +1. -/
theorem test_V6_lda :
    after ({ launch 0x0200#16 [0xBD#8, 0xFF#8, 0x12#8] [(0x1300, 0x44#8)] with x := 0x01#8, cfg := ⟨true⟩ })
      (fun t => t.a == 0x44#8 && t.pc == 0x0203#16 && t.cyclesLast == 5#8) = true := by decide

/-- V7 (R170): abs,Y wraps 0xFFFF+1 to 0x0000. -/
theorem test_V7_lda :
    after ({ launch 0x0200#16 [0xB9#8, 0xFF#8, 0xFF#8] [(0x0000, 0x5A#8)] with y := 0x01#8 })
      (fun t => t.a == 0x5A#8 && t.pc == 0x0203#16 && t.cyclesLast == 4#8) = true := by decide

/-- V8 (R170): (zp,X): pointer 0xFF, high byte from 0x00. -/
theorem test_V8_lda :
    after ({ launch 0x0200#16 [0xA1#8, 0xFE#8] [(0x0000, 0x30#8), (0x00FF, 0x00#8), (0x3000, 0x66#8)] with x := 0x01#8 })
      (fun t => t.a == 0x66#8 && t.pc == 0x0202#16 && t.cyclesLast == 6#8) = true := by decide

/-- V9 (R170): (zp,X): 0x20+0xE0 wraps to 0x00. -/
theorem test_V9_lda :
    after ({ launch 0x0200#16 [0xA1#8, 0x20#8] [(0x0000, 0x34#8), (0x0001, 0x12#8), (0x1234, 0x77#8)] with x := 0xE0#8 })
      (fun t => t.a == 0x77#8 && t.pc == 0x0202#16 && t.cyclesLast == 6#8) = true := by decide

/-- V10 (R170): (zp),Y: pointer 0xFF wraps (D8); N=1. -/
theorem test_V10_lda :
    after ({ launch 0x0200#16 [0xB1#8, 0xFF#8] [(0x0000, 0x30#8), (0x00FF, 0x00#8), (0x3005, 0x88#8)] with y := 0x05#8 })
      (fun t => t.a == 0x88#8 && t.p == 0xA0#8) = true := by decide

/-- V11 (R170): (zp),Y page cross, STRICT_TIMING: 6. -/
theorem test_V11_lda :
    after ({ launch 0x0200#16 [0xB1#8, 0x40#8] [(0x0040, 0xF8#8), (0x0041, 0x20#8), (0x2108, 0x01#8)] with y := 0x10#8, cfg := ⟨true⟩ })
      (fun t => t.a == 0x01#8 && t.pc == 0x0202#16 && t.cyclesLast == 6#8) = true := by decide

/-- V12 (R171): LDX zp,Y wraps; Z=1. -/
theorem test_V12_ldx :
    after ({ launch 0x0200#16 [0xB6#8, 0xFF#8] [(0x0001, 0x00#8)] with y := 0x02#8 })
      (fun t => t.p == 0x22#8 && t.pc == 0x0202#16 && t.cyclesLast == 4#8) = true := by decide

/-- V13 (R171): LDX abs,Y. -/
theorem test_V13_ldx :
    after ({ launch 0x0200#16 [0xBE#8, 0x00#8, 0x30#8] [(0x3003, 0x90#8)] with y := 0x03#8 })
      (fun t => t.x == 0x90#8 && t.p == 0xA0#8) = true := by decide

/-- V14 (R172): LDY abs,X. -/
theorem test_V14_ldy :
    after ({ launch 0x0200#16 [0xBC#8, 0x00#8, 0x30#8] [(0x3002, 0x01#8)] with x := 0x02#8 })
      (fun t => t.y == 0x01#8 && t.pc == 0x0203#16 && t.cyclesLast == 4#8) = true := by decide

/-- V15 (R172): LDY #$FF: N=1. -/
theorem test_V15_ldy :
    after (launch 0x0200#16 [0xA0#8, 0xFF#8] [])
      (fun t => t.y == 0xFF#8 && t.p == 0xA0#8) = true := by decide

/-- V16 (R173): STA abs,X wraps to 0x0001; flags kept. -/
theorem test_V16_sta :
    after ({ launch 0x0200#16 [0x9D#8, 0xFF#8, 0xFF#8] [] with a := 0xAB#8, x := 0x02#8, p := 0xA3#8 })
      (fun t => t.readByte 0x0001#16 == 0xAB#8 && t.pc == 0x0203#16 && t.cyclesLast == 5#8) = true := by decide

/-- V17 (R173): STA (zp),Y crosses to page 0x31: still 6, since stores have no page penalty (40_dispatch.md rule R127). -/
theorem test_V17_sta :
    after ({ launch 0x0200#16 [0x91#8, 0x10#8] [(0x0010, 0x01#8), (0x0011, 0x30#8)] with a := 0x01#8, y := 0xFF#8 })
      (fun t => t.readByte 0x3100#16 == 0x01#8 && t.pc == 0x0202#16 && t.cyclesLast == 6#8) = true := by decide

/-- V18 (R174): STX zp,Y wraps to 0x10; Z not set. -/
theorem test_V18_stx :
    after ({ launch 0x0200#16 [0x96#8, 0xF0#8] [] with x := 0x00#8, y := 0x20#8 })
      (fun t => t.pc == 0x0202#16 && t.cyclesLast == 4#8) = true := by decide

/-- V19 (R175): STY abs; N not set. -/
theorem test_V19_sty :
    after ({ launch 0x0200#16 [0x8C#8, 0x00#8, 0x02#8] [] with y := 0x80#8 })
      (fun t => t.readByte 0x0200#16 == 0x80#8 && t.pc == 0x0203#16 && t.cyclesLast == 4#8) = true := by decide

/-- V20 (R175): STY zp,X wraps to 0x05. -/
theorem test_V20_sty :
    after ({ launch 0x0200#16 [0x94#8, 0x80#8] [] with x := 0x85#8, y := 0x11#8 })
      (fun t => t.readByte 0x0005#16 == 0x11#8 && t.pc == 0x0202#16 && t.cyclesLast == 4#8) = true := by decide

/-- V21 (R190): DOC §8 scenario. -/
theorem test_V21_adc :
    after ({ launch 0x0200#16 [0x69#8, 0x01#8] [] with a := 0xFF#8, p := 0x21#8 })
      (fun t => t.a == 0x01#8 && t.pc == 0x0202#16 && t.cyclesLast == 2#8) = true := by decide

/-- V22 (R190): positive overflow. -/
theorem test_V22_adc :
    after ({ launch 0x0200#16 [0x69#8, 0x50#8] [] with a := 0x50#8 })
      (fun t => t.a == 0xA0#8 && t.p == 0xE0#8) = true := by decide

/-- V28 (R191): SBC borrow, no overflow. -/
theorem test_V28_sbc :
    after ({ launch 0x0200#16 [0xE9#8, 0xF0#8] [] with a := 0x50#8, p := 0x21#8 })
      (fun t => t.a == 0x60#8 && t.p == 0x20#8) = true := by decide

/-- V29 (R191): SBC overflow. -/
theorem test_V29_sbc :
    after ({ launch 0x0200#16 [0xE9#8, 0xB0#8] [] with a := 0x50#8, p := 0x21#8 })
      (fun t => t.a == 0xA0#8 && t.p == 0xE0#8) = true := by decide

/-- V34 (R192): AND to 0: Z=1; C, V kept. -/
theorem test_V34_and :
    after ({ launch 0x0200#16 [0x29#8, 0x0F#8] [] with a := 0xF0#8, p := 0x61#8 })
      (fun t => t.a == 0x00#8 && t.p == 0x63#8) = true := by decide

/-- V35 (R192): AND: N=1. -/
theorem test_V35_and :
    after ({ launch 0x0200#16 [0x29#8, 0x80#8] [] with a := 0xFF#8 })
      (fun t => t.a == 0x80#8 && t.p == 0xA0#8) = true := by decide

/-- V36 (R193): ORA 0: Z=1. -/
theorem test_V36_ora :
    after ({ launch 0x0200#16 [0x09#8, 0x00#8] [] with a := 0x00#8 })
      (fun t => t.p == 0x22#8 && t.pc == 0x0202#16 && t.cyclesLast == 2#8) = true := by decide

/-- V37 (R193): ORA: N=1. -/
theorem test_V37_ora :
    after ({ launch 0x0200#16 [0x09#8, 0x81#8] [] with a := 0x01#8 })
      (fun t => t.a == 0x81#8 && t.p == 0xA0#8) = true := by decide

/-- V38 (R194): EOR self-complement: Z=1. -/
theorem test_V38_eor :
    after ({ launch 0x0200#16 [0x49#8, 0xFF#8] [] with a := 0xFF#8 })
      (fun t => t.a == 0x00#8 && t.p == 0x22#8) = true := by decide

/-- V39 (R194): EOR: N=1. -/
theorem test_V39_eor :
    after ({ launch 0x0200#16 [0x49#8, 0x01#8] [] with a := 0x81#8 })
      (fun t => t.a == 0x80#8 && t.p == 0xA0#8) = true := by decide

/-- V40 (R195): BIT: Z=1, N=1, V=1. -/
theorem test_V40_bit :
    after ({ launch 0x0200#16 [0x24#8, 0x10#8] [(0x0010, 0xC0#8)] with a := 0x0F#8 })
      (fun t => t.p == 0xE2#8 && t.pc == 0x0202#16 && t.cyclesLast == 3#8) = true := by decide

/-- V41 (R195): BIT: N, V cleared from M. -/
theorem test_V41_bit :
    after ({ launch 0x0200#16 [0x2C#8, 0x00#8, 0x30#8] [(0x3000, 0x01#8)] with a := 0xFF#8, p := 0xE0#8 })
      (fun t => t.p == 0x20#8 && t.pc == 0x0203#16 && t.cyclesLast == 4#8) = true := by decide

/-- V42 (R210): ASL A: 0, C=1, Z=1. -/
theorem test_V42_asl :
    after ({ launch 0x0200#16 [0x0A#8] [] with a := 0x80#8 })
      (fun t => t.a == 0x00#8 && t.p == 0x23#8) = true := by decide

/-- V43 (R210): ASL abs,X. -/
theorem test_V43_asl :
    after ({ launch 0x0200#16 [0x1E#8, 0xFF#8, 0x00#8] [(0x0100, 0x41#8)] with x := 0x01#8 })
      (fun t => t.p == 0xA0#8 && t.readByte 0x0100#16 == 0x82#8) = true := by decide

/-- V44 (R211): LSR A: 0, C=1, Z=1. -/
theorem test_V44_lsr :
    after ({ launch 0x0200#16 [0x4A#8] [] with a := 0x01#8 })
      (fun t => t.a == 0x00#8 && t.p == 0x23#8) = true := by decide

/-- V45 (R211): LSR zp: N cleared. -/
theorem test_V45_lsr :
    after ({ launch 0x0200#16 [0x46#8, 0x10#8] [(0x0010, 0xFF#8)] with p := 0xA0#8 })
      (fun t => t.p == 0x21#8 && t.readByte 0x0010#16 == 0x7F#8) = true := by decide

/-- V46 (R212): ROL A, C=0: 0, C=1. -/
theorem test_V46_rol :
    after ({ launch 0x0200#16 [0x2A#8] [] with a := 0x80#8 })
      (fun t => t.a == 0x00#8 && t.p == 0x23#8) = true := by decide

/-- V47 (R212): ROL zp, C=1: 0x81. -/
theorem test_V47_rol :
    after ({ launch 0x0200#16 [0x26#8, 0x10#8] [(0x0010, 0x40#8)] with p := 0x21#8 })
      (fun t => t.p == 0xA0#8 && t.readByte 0x0010#16 == 0x81#8) = true := by decide

/-- V48 (R213): ROR A, C=1: 0x80, N=1. -/
theorem test_V48_ror :
    after ({ launch 0x0200#16 [0x6A#8] [] with a := 0x00#8, p := 0x21#8 })
      (fun t => t.a == 0x80#8 && t.p == 0xA0#8) = true := by decide

/-- V49 (R213): ROR zp,X: 0, C=1, Z=1. -/
theorem test_V49_ror :
    after ({ launch 0x0200#16 [0x76#8, 0x0F#8] [(0x0010, 0x01#8)] with x := 0x01#8 })
      (fun t => t.p == 0x23#8 && t.readByte 0x0010#16 == 0x00#8) = true := by decide

/-- V50 (R230): equal. -/
theorem test_V50_cmp :
    after ({ launch 0x0200#16 [0xC9#8, 0x10#8] [] with a := 0x10#8 })
      (fun t => t.p == 0x23#8 && t.pc == 0x0202#16 && t.cyclesLast == 2#8) = true := by decide

/-- V51 (R230): less: C=0, N=1. -/
theorem test_V51_cmp :
    after ({ launch 0x0200#16 [0xC9#8, 0x01#8] [] with a := 0x00#8 })
      (fun t => t.p == 0xA0#8 && t.pc == 0x0202#16 && t.cyclesLast == 2#8) = true := by decide

/-- V54 (R231): CPX less. -/
theorem test_V54_cpx :
    after ({ launch 0x0200#16 [0xE0#8, 0x06#8] [] with x := 0x05#8 })
      (fun t => t.p == 0xA0#8 && t.pc == 0x0202#16 && t.cyclesLast == 2#8) = true := by decide

/-- V55 (R232): CPY greater, N=1. -/
theorem test_V55_cpy :
    after ({ launch 0x0200#16 [0xC0#8, 0x00#8] [] with y := 0xFF#8 })
      (fun t => t.p == 0xA1#8 && t.pc == 0x0202#16 && t.cyclesLast == 2#8) = true := by decide

/-- V56 (R233): INC wraps, C kept. -/
theorem test_V56_inc :
    after ({ launch 0x0200#16 [0xE6#8, 0x10#8] [(0x0010, 0xFF#8)] with p := 0x21#8 })
      (fun t => t.p == 0x23#8 && t.readByte 0x0010#16 == 0x00#8) = true := by decide

/-- V57 (R234): DEC wraps. -/
theorem test_V57_dec :
    after (launch 0x0200#16 [0xCE#8, 0x00#8, 0x30#8] [(0x3000, 0x00#8)])
      (fun t => t.p == 0xA0#8 && t.readByte 0x3000#16 == 0xFF#8) = true := by decide

/-- V58 (R235): INX wraps. -/
theorem test_V58_inx :
    after ({ launch 0x0200#16 [0xE8#8] [] with x := 0xFF#8 })
      (fun t => t.x == 0x00#8 && t.p == 0x22#8) = true := by decide

/-- V59 (R236): INY to 0x80. -/
theorem test_V59_iny :
    after ({ launch 0x0200#16 [0xC8#8] [] with y := 0x7F#8 })
      (fun t => t.y == 0x80#8 && t.p == 0xA0#8) = true := by decide

/-- V60 (R237): DEX to 0. -/
theorem test_V60_dex :
    after ({ launch 0x0200#16 [0xCA#8] [] with x := 0x01#8 })
      (fun t => t.x == 0x00#8 && t.p == 0x22#8) = true := by decide

/-- V61 (R238): DEY wraps. -/
theorem test_V61_dey :
    after ({ launch 0x0200#16 [0x88#8] [] with y := 0x00#8 })
      (fun t => t.y == 0xFF#8 && t.p == 0xA0#8) = true := by decide

/-- V62 (R254): DOC §8: branch to itself. -/
theorem test_V62_beq :
    after ({ launch 0x0010#16 [0xF0#8, 0xFE#8] [] with p := 0x22#8 })
      (fun t => t.pc == 0x0010#16 && t.cyclesLast == 3#8) = true := by decide

/-- V63 (R253): BNE not taken. -/
theorem test_V63_bne :
    after ({ launch 0x0010#16 [0xD0#8, 0xFE#8] [] with p := 0x22#8 })
      (fun t => t.pc == 0x0012#16 && t.cyclesLast == 2#8) = true := by decide

/-- V64 (R251): BCC taken forward, crosses to 0x0301, default. -/
theorem test_V64_bcc :
    after (launch 0x0280#16 [0x90#8, 0x7F#8] [])
      (fun t => t.pc == 0x0301#16 && t.cyclesLast == 3#8) = true := by decide

/-- V65 (R251): same, STRICT_TIMING: 4. -/
theorem test_V65_bcc :
    after ({ launch 0x0280#16 [0x90#8, 0x7F#8] [] with cfg := ⟨true⟩ })
      (fun t => t.pc == 0x0301#16 && t.cyclesLast == 4#8) = true := by decide

/-- V66 (R252): BCS -128 crosses back, default timing. -/
theorem test_V66_bcs :
    after ({ launch 0x0300#16 [0xB0#8, 0x80#8] [] with p := 0x21#8 })
      (fun t => t.pc == 0x0282#16 && t.cyclesLast == 3#8) = true := by decide

/-- V67 (R255): BPL wraps to 0x0012. -/
theorem test_V67_bpl :
    after (launch 0xFFF0#16 [0x10#8, 0x20#8] [])
      (fun t => t.pc == 0x0012#16 && t.cyclesLast == 3#8) = true := by decide

/-- V68 (R256): BMI not taken. -/
theorem test_V68_bmi :
    after ({ launch 0x0200#16 [0x30#8, 0x10#8] [] with p := 0x20#8 })
      (fun t => t.pc == 0x0202#16 && t.cyclesLast == 2#8) = true := by decide

/-- V69 (R257): BVC offset 0, taken: 3 cycles. -/
theorem test_V69_bvc :
    after (launch 0x0200#16 [0x50#8, 0x00#8] [])
      (fun t => t.pc == 0x0202#16 && t.cyclesLast == 3#8) = true := by decide

/-- V70 (R258): BVS taken. -/
theorem test_V70_bvs :
    after ({ launch 0x0200#16 [0x70#8, 0x02#8] [] with p := 0x60#8 })
      (fun t => t.pc == 0x0204#16 && t.cyclesLast == 3#8) = true := by decide

/-- V71 (R253): branch at 0xFFFE, PC+2 wraps to 0x0000. -/
theorem test_V71_bne :
    after (launch 0xFFFE#16 [0xD0#8, 0x02#8] [])
      (fun t => t.pc == 0x0002#16 && t.cyclesLast == 3#8) = true := by decide

/-- V72 (R270): JMP abs. -/
theorem test_V72_jmp :
    after (launch 0x0200#16 [0x4C#8, 0x34#8, 0x12#8] [])
      (fun t => t.pc == 0x1234#16 && t.cyclesLast == 3#8) = true := by decide

/-- V73 (R270): JMP ind. -/
theorem test_V73_jmp :
    after (launch 0x0200#16 [0x6C#8, 0x00#8, 0x30#8] [(0x3000, 0x00#8), (0x3001, 0x80#8)])
      (fun t => t.pc == 0x8000#16 && t.cyclesLast == 5#8) = true := by decide

/-- V74 (R270): JMP ($30FF): high byte from 0x3100, no NMOS bug. -/
theorem test_V74_jmp :
    after (launch 0x0200#16 [0x6C#8, 0xFF#8, 0x30#8] [(0x3000, 0x56#8), (0x30FF, 0x34#8), (0x3100, 0x12#8)])
      (fun t => t.pc == 0x1234#16 && t.cyclesLast == 5#8) = true := by decide

/-- V75 (R271): DOC §8 JSR. -/
theorem test_V75_jsr :
    after (launch 0x0600#16 [0x20#8, 0x34#8, 0x12#8] [])
      (fun t => t.s == 0xFD#8 && t.readByte 0x01FE#16 == 0x02#8 && t.readByte 0x01FF#16 == 0x06#8 && t.pc == 0x1234#16 && t.cyclesLast == 6#8) = true := by decide

/-- V76 (R271): JSR with S=0: wraps. -/
theorem test_V76_jsr :
    after ({ launch 0x0600#16 [0x20#8, 0x00#8, 0x40#8] [] with s := 0x00#8 })
      (fun t => t.s == 0xFE#8 && t.readByte 0x0100#16 == 0x06#8 && t.readByte 0x01FF#16 == 0x02#8 && t.pc == 0x4000#16 && t.cyclesLast == 6#8) = true := by decide

/-- V77 (R272): DOC §8 RTS. -/
theorem test_V77_rts :
    after ({ launch 0x0200#16 [0x60#8] [(0x01FE, 0x02#8), (0x01FF, 0x06#8)] with s := 0xFD#8 })
      (fun t => t.s == 0xFF#8 && t.pc == 0x0603#16 && t.cyclesLast == 6#8) = true := by decide

/-- V78 (R272): RTS from 0xFFFF: 0x0000. -/
theorem test_V78_rts :
    after ({ launch 0x0200#16 [0x60#8] [(0x01FE, 0xFF#8), (0x01FF, 0xFF#8)] with s := 0xFD#8 })
      (fun t => t.s == 0xFF#8 && t.pc == 0x0000#16 && t.cyclesLast == 6#8) = true := by decide

/-- V79 (R273): RTI: P=0xEF (bit 4 dropped), no +1. -/
theorem test_V79_rti :
    after ({ launch 0x0200#16 [0x40#8] [(0x01FD, 0xFF#8), (0x01FE, 0x02#8), (0x01FF, 0x06#8)] with s := 0xFC#8 })
      (fun t => t.s == 0xFF#8 && t.p == 0xEF#8 && t.pc == 0x0602#16 && t.cyclesLast == 6#8) = true := by decide

/-- V80 (R273): RTI: pulled 0x00 gives P=0x20. -/
theorem test_V80_rti :
    after ({ launch 0x0200#16 [0x40#8] [(0x01FD, 0x00#8), (0x01FE, 0x00#8), (0x01FF, 0x80#8)] with s := 0xFC#8, p := 0xE7#8 })
      (fun t => t.s == 0xFF#8 && t.p == 0x20#8 && t.pc == 0x8000#16 && t.cyclesLast == 6#8) = true := by decide

/-- V81 (R290): DOC §8 stack wrap. -/
theorem test_V81_pha :
    after ({ launch 0x0200#16 [0x48#8] [] with a := 0x99#8, s := 0x00#8 })
      (fun t => t.s == 0xFF#8 && t.readByte 0x0100#16 == 0x99#8) = true := by decide

/-- V82 (R291): PHP pushes P\|0x30. -/
theorem test_V82_php :
    after ({ launch 0x0200#16 [0x08#8] [] with p := 0xE3#8 })
      (fun t => t.s == 0xFE#8 && t.readByte 0x01FF#16 == 0xF3#8) = true := by decide

/-- V83 (R292): PLA 0: Z=1. -/
theorem test_V83_pla :
    after ({ launch 0x0200#16 [0x68#8] [(0x01FF, 0x00#8)] with s := 0xFE#8 })
      (fun t => t.s == 0xFF#8 && t.p == 0x22#8) = true := by decide

/-- V84 (R292): PLA with S=0xFF wraps to 0x0100. -/
theorem test_V84_pla :
    after ({ launch 0x0200#16 [0x68#8] [(0x0100, 0x80#8)] with s := 0xFF#8 })
      (fun t => t.a == 0x80#8 && t.s == 0x00#8 && t.p == 0xA0#8) = true := by decide

/-- V85 (R293): PLP 0xFF gives 0xEF. -/
theorem test_V85_plp :
    after ({ launch 0x0200#16 [0x28#8] [(0x01FF, 0xFF#8)] with s := 0xFE#8 })
      (fun t => t.s == 0xFF#8 && t.p == 0xEF#8) = true := by decide

/-- V87 (R310): SEC. -/
theorem test_V87_sec :
    after (launch 0x0200#16 [0x38#8] [])
      (fun t => t.p == 0x21#8 && t.pc == 0x0201#16 && t.cyclesLast == 2#8) = true := by decide

/-- V88 (R311): CLC. -/
theorem test_V88_clc :
    after ({ launch 0x0200#16 [0x18#8] [] with p := 0xE3#8 })
      (fun t => t.p == 0xE2#8 && t.pc == 0x0201#16 && t.cyclesLast == 2#8) = true := by decide

/-- V89 (R312): SED. -/
theorem test_V89_sed :
    after (launch 0x0200#16 [0xF8#8] [])
      (fun t => t.p == 0x28#8 && t.pc == 0x0201#16 && t.cyclesLast == 2#8) = true := by decide

/-- V90 (R313): CLD. -/
theorem test_V90_cld :
    after ({ launch 0x0200#16 [0xD8#8] [] with p := 0x28#8 })
      (fun t => t.p == 0x20#8 && t.pc == 0x0201#16 && t.cyclesLast == 2#8) = true := by decide

/-- V91 (R314): SEI. -/
theorem test_V91_sei :
    after (launch 0x0200#16 [0x78#8] [])
      (fun t => t.p == 0x24#8 && t.pc == 0x0201#16 && t.cyclesLast == 2#8) = true := by decide

/-- V92 (R315): CLI. -/
theorem test_V92_cli :
    after ({ launch 0x0200#16 [0x58#8] [] with p := 0x24#8 })
      (fun t => t.p == 0x20#8 && t.pc == 0x0201#16 && t.cyclesLast == 2#8) = true := by decide

/-- V93 (R316): CLV. -/
theorem test_V93_clv :
    after ({ launch 0x0200#16 [0xB8#8] [] with p := 0x60#8 })
      (fun t => t.p == 0x20#8 && t.pc == 0x0201#16 && t.cyclesLast == 2#8) = true := by decide

/-- V94 (R317): TAX 0. -/
theorem test_V94_tax :
    after ({ launch 0x0200#16 [0xAA#8] [] with a := 0x00#8, x := 0x12#8 })
      (fun t => t.x == 0x00#8 && t.p == 0x22#8) = true := by decide

/-- V95 (R318): TXA N=1. -/
theorem test_V95_txa :
    after ({ launch 0x0200#16 [0x8A#8] [] with x := 0xFF#8 })
      (fun t => t.a == 0xFF#8 && t.p == 0xA0#8) = true := by decide

/-- V96 (R319): TAY N=1. -/
theorem test_V96_tay :
    after ({ launch 0x0200#16 [0xA8#8] [] with a := 0x80#8 })
      (fun t => t.y == 0x80#8 && t.p == 0xA0#8) = true := by decide

/-- V97 (R320): TYA Z=1. -/
theorem test_V97_tya :
    after ({ launch 0x0200#16 [0x98#8] [] with a := 0x55#8, y := 0x00#8 })
      (fun t => t.a == 0x00#8 && t.p == 0x22#8) = true := by decide

/-- V98 (R321): TSX 0: Z=1. -/
theorem test_V98_tsx :
    after ({ launch 0x0200#16 [0xBA#8] [] with s := 0x00#8 })
      (fun t => t.p == 0x22#8 && t.pc == 0x0201#16 && t.cyclesLast == 2#8) = true := by decide

/-- V99 (R322): TXS 0: flags unchanged. -/
theorem test_V99_txs :
    after ({ launch 0x0200#16 [0x9A#8] [] with x := 0x00#8, p := 0xA0#8 })
      (fun t => t.s == 0x00#8 && t.pc == 0x0201#16 && t.cyclesLast == 2#8) = true := by decide

/-- V100 (R323): NOP. -/
theorem test_V100_nop :
    after ({ launch 0x0200#16 [0xEA#8] [] with a := 0x01#8, x := 0x02#8, y := 0x03#8, p := 0xEF#8 })
      (fun t => t.pc == 0x0201#16 && t.cyclesLast == 2#8) = true := by decide

/-- V101 (R325): BRK: pushes 06 02 31, I=1. -/
theorem test_V101_brk :
    after ({ launch 0x0600#16 [0x00#8, 0xEA#8] [(0xFFFE, 0x00#8), (0xFFFF, 0x80#8)] with p := 0x21#8 })
      (fun t => t.s == 0xFC#8 && t.p == 0x25#8 && t.readByte 0x01FD#16 == 0x31#8 && t.readByte 0x01FE#16 == 0x02#8 && t.readByte 0x01FF#16 == 0x06#8 && t.pc == 0x8000#16 && t.cyclesLast == 7#8) = true := by decide

/-- V102 (R325): BRK with S=1 wraps; D kept. -/
theorem test_V102_brk :
    after ({ launch 0x0600#16 [0x00#8] [(0xFFFE, 0x34#8), (0xFFFF, 0x12#8)] with s := 0x01#8, p := 0xEF#8 })
      (fun t => t.s == 0xFE#8 && t.readByte 0x0100#16 == 0x02#8 && t.readByte 0x0101#16 == 0x06#8 && t.readByte 0x01FF#16 == 0xFF#8 && t.pc == 0x1234#16 && t.cyclesLast == 7#8) = true := by decide

/-! ## Faults and the host's commands (V104–V116) -/

/-- The fault state of V104. -/
def faulted : State :=
  { launch 0x0600#16 [0x02#8] [] with
    a := 0x11#8, lastOpcode := some 0x02#8, runState := .halted, fault := some ⟨.unimplementedOpcode, 0x02#8, 0x0600#16⟩ }

theorem test_V104_fault : hostStep { launch 0x0600#16 [0x02#8] [] with a := 0x11#8 } =
    (faulted, .fault (.halted (some ⟨.unimplementedOpcode, 0x02#8, 0x0600#16⟩))) := by decide

theorem test_V105_again : hostStep faulted =
    (faulted, .fault (.halted (some ⟨.unimplementedOpcode, 0x02#8, 0x0600#16⟩))) := by decide

theorem test_V107_not_initialized : (match construct {} {} [0xA9#8, 0x05#8, 0xAA#8] with
    | .next s => decide (hostStep s = (s, .fault .notInitialized)) && s.readByte 0x0002#16 == 0xAA#8
    | .fault _ => false
    | .refused _ => false) = true := by decide

/-- What `initialize` makes of what `construct` makes. -/
def boot (rom : List Byte) (la : Nat) (ep : Option Word) : Host.Outcome State Fault Refusal :=
  match construct {} {} rom la ep with
  | .next s => initializeCore s
  | .fault f => .fault f
  | .refused r => .refused r

/-- A property of the state an outcome holds. -/
def holds (o : Host.Outcome State Fault Refusal) (q : State → Bool) : Bool :=
  match o with
  | .next s => q s
  | .fault _ => false
  | .refused _ => false

theorem test_V108_vector : holds (boot [0x00#8, 0x06#8] 0xFFFC none) (fun s => s.pc == 0x0600#16 && s.runState == .ready) = true := by
  decide

theorem test_V109_entry_point : holds (boot [0x00#8, 0x06#8, 0x00#8, 0x07#8] 0xFFFC (some 0x8000#16))
    (fun s => s.pc == 0x8000#16 && s.readByte 0xFFFD#16 == 0x80#8 && s.readByte 0xFFFF#16 == 0x07#8) = true := by decide

theorem test_V110_entry_zero : holds (boot [0x34#8, 0x12#8] 0xFFFC (some 0x0000#16)) (fun s => s.pc == 0x1234#16) = true := by
  decide

theorem test_V111_too_long : construct {} {} [0xEA#8, 0xEA#8] 0xFFFF = .refused .imageOutOfRange := rfl

theorem test_V112_again : initializeCore plain = .refused .alreadyInitialized := rfl

theorem test_V113_halted : initializeCore faulted = .refused .alreadyInitialized := rfl

theorem test_V114_bit4 : fixture {} 0#8 0#8 0#8 0#8 0x30#8 0#16 [] = .refused .fixtureInvalid := rfl

theorem test_V115_bit5 : fixture {} 0#8 0#8 0#8 0#8 0x00#8 0#16 [] = .refused .fixtureInvalid := rfl

theorem test_V116_empty_image : holds (boot [] 0 none) (fun s => s.pc == 0x0000#16 && s.runState == .ready) = true := by decide

theorem test_ports : faulted.ports = ⟨0x0600#16, 0x11#8, 0#8, 0#8, 0xFF#8, 0x20#8, some 0x02#8, 0#8⟩ := rfl

theorem test_fault_codes : [FaultKind.notInitialized, .unimplementedOpcode, .invalidAddressingModeForInstruction,
    .flagValueOutOfRange].map FaultKind.code = [1, 2, 3, 4] := rfl

theorem test_text : Instr.text 0x0600#16 (.ldaIzy 0xFF#8) = "LDA ($FF),Y" := by decide

/-! ## Witnesses: for each obligation with hypotheses, a concrete input that meets them all together -/

theorem witness_EncodeOfDecode : decode [0xBD#8, 0xFF#8, 0x12#8, 0x00#8] = .ok (.ldaAbx 0x12FF#16, [0x00#8]) := rfl

theorem witness_OpcodeDecidesModeAndLength :
    decode [0x20#8, 0x00#8, 0x40#8] = .ok (.jsrAbs 0x4000#16, []) ∧
      decode [0x20#8, 0xFF#8, 0xFF#8, 0x00#8] = .ok (.jsrAbs 0xFFFF#16, [0x00#8]) := ⟨rfl, rfl⟩

/-- Both sides of the equivalence are met and missed. -/
theorem witness_SupportedPairsAreTheInstructions :
    RawInstr.wellFormed ⟨.jmp, .memory (.indirect 0x1234#16)⟩ = true ∧ RawInstr.wellFormed ⟨.jsr, .memory (.indirect 0x1234#16)⟩ = false :=
  ⟨rfl, rfl⟩

theorem witness_UnimplementedExactlyTheListedBytes : 0x80#8 ∈ undefinedOpcodes ∧ 0x81#8 ∉ undefinedOpcodes := by decide

/-- The ends of R102's range, and one past each. -/
theorem witness_RelativeOffsetReachesTarget :
    relativeOffset 0x0200#16 0x0281#16 = some 0x7F#8 ∧ relativeOffset 0x0200#16 0x0182#16 = some 0x80#8 ∧
      relativeOffset 0x0200#16 0x0282#16 = none ∧ relativeOffset 0x0200#16 0x0181#16 = none := by decide

theorem witness_StepRunsTheDecodedInstruction :
    (launch 0xFFFF#16 [0x4C#8] [(0x0000, 0x34#8), (0x0001, 0x12#8)]).runState = .ready ∧
      decode (fetchBytes (launch 0xFFFF#16 [0x4C#8] [(0x0000, 0x34#8), (0x0001, 0x12#8)])) = .ok (.jmpAbs 0x1234#16, []) :=
  ⟨rfl, rfl⟩

theorem witness_UnimplementedOpcodeHalts :
    (launch 0x0600#16 [0xFF#8] []).runState = .ready ∧
      (launch 0x0600#16 [0xFF#8] []).readByte 0x0600#16 ∈ undefinedOpcodes := by decide

theorem witness_UnimplementedOpcodeHalts_defined :
    (launch 0x0600#16 [0xFE#8] []).runState = .ready ∧
      (launch 0x0600#16 [0xFE#8] []).readByte 0x0600#16 ∉ undefinedOpcodes := by decide

theorem witness_NoStepOutsideReady :
    ({ plain with runState := .uninitialized } : State).runState = .uninitialized ∧ faulted.runState = .halted := ⟨rfl, rfl⟩

theorem witness_DefinedOpcodesComplete : plain.runState = .ready ∧ plain.readByte plain.pc ∉ undefinedOpcodes := by decide

theorem witness_CycleCostFollowsTheTable_none :
    (Instr.brk).extraCycles = .none ∧ ∃ t, exec .brk plain = .next t := ⟨rfl, _, rfl⟩

/-- A `p` opcode whose indexing crosses a page under STRICT_TIMING. -/
theorem witness_CycleCostFollowsTheTable_page :
    (opcodeEntry 0xBD#8).map OpcodeEntry.extra = some .page ∧ (Instr.ldaAbx 0x12FF#16).operand = .memory (.absoluteX 0x12FF#16) ∧
      pageCrossed (.absoluteX 0x12FF#16) { plain with x := 0x01#8 } = true ∧
      ∃ t, exec (.ldaAbx 0x12FF#16) { plain with x := 0x01#8, cfg := ⟨true⟩ } = .next t := ⟨rfl, rfl, rfl, _, rfl⟩

/-- A branch taken to another page under STRICT_TIMING, and one not taken. -/
theorem witness_CycleCostFollowsTheTable_branch :
    (opcodeEntry 0xD0#8).map OpcodeEntry.extra = some .branch ∧
      branchCondition (Instr.bne 0x80#8).mnemonic = some (.z, false) ∧ (Instr.bne 0x80#8).operand = .relative 0x80#8 ∧
      plain.flag .z = false ∧ (branchTarget plain.pc 0x80#8).toNat / 256 ≠ (plain.pc.toNat + 2) % 65536 / 256 ∧
      (∃ t, exec (.bne 0x80#8) { plain with cfg := ⟨true⟩ } = .next t) ∧
      branchCondition (Instr.beq 0x80#8).mnemonic = some (.z, true) ∧ ∃ t, exec (.beq 0x80#8) plain = .next t :=
  ⟨rfl, rfl, rfl, by decide, by decide, ⟨_, rfl⟩, rfl, _, rfl⟩

/-- One input for each clause, its hypotheses met: going on, not taken, taken, JMP, RTS, RTI, BRK. -/
theorem witness_PcAfterEveryInstruction :
    plain.mem.wf = true ∧ branchCondition (Instr.staAbs 0xFFFF#16).mnemonic = none ∧
      (Instr.staAbs 0xFFFF#16).mnemonic ∉ [Mnemonic.jmp, .jsr, .rts, .rti, .brk] ∧
      branchCondition (Instr.beq 0x80#8).mnemonic = some (.z, true) ∧ plain.flag .z ≠ true ∧
      branchCondition (Instr.bne 0x7F#8).mnemonic = some (.z, false) ∧ plain.flag .z = false ∧
      (Instr.jmpInd 0xFFFF#16).operand = .memory (.indirect 0xFFFF#16) ∧ (Instr.rts).mnemonic = .rts ∧
      (Instr.rti).mnemonic = .rti ∧ (Instr.brk).mnemonic = .brk := by decide

theorem witness_TimingInfluencesNothingElse :
    (∃ t, step (launch 0x0280#16 [0x90#8, 0x7F#8] []) = .next t ∧ t.runState = .ready) ∧
      ∃ t, step (launch 0x0280#16 [0x02#8] []) = .next t ∧ t.runState = .halted := ⟨⟨_, rfl, rfl⟩, _, rfl, rfl⟩

/-- The invariants hold of a launch state, of a constructed one and of a halted one. -/
theorem inv_plain : Inv plain := ⟨rfl, rfl, rfl, by decide, fun _ => rfl, fun h => nomatch h⟩

theorem inv_faulted : Inv faulted := ⟨rfl, rfl, rfl, by decide, fun h => absurd rfl h, fun _ => ⟨rfl, rfl, rfl⟩⟩

theorem witness_StepKeepsInvariants : Inv plain ∧ ∃ t, step plain = .next t := ⟨inv_plain, _, rfl⟩

/-- Each way of being reachable: construct, initialize, a fixture, a step. -/
theorem witness_ReachableStatesKeepInvariants :
    ∃ u s t f, construct {} {} [0xEA#8] 0xFFFF = .next u ∧ Reachable u ∧ initializeCore u = .next s ∧ Reachable s ∧
      step s = .next t ∧ Reachable t ∧ fixture {} 0#8 0#8 0#8 0xFF#8 0x20#8 0x0200#16 [] = .next f ∧ Reachable f :=
  ⟨_, _, _, _, rfl, .constructed (cfg := {}) (ip := {}) (rom := [0xEA#8]) (la := 0xFFFF) (ep := none) rfl rfl, rfl,
    .initialized (.constructed (cfg := {}) (ip := {}) (rom := [0xEA#8]) (la := 0xFFFF) (ep := none) rfl rfl) rfl, rfl,
    .stepped (.initialized (.constructed (cfg := {}) (ip := {}) (rom := [0xEA#8]) (la := 0xFFFF) (ep := none) rfl rfl) rfl) rfl,
    rfl, .launched (cfg := {}) (a := 0#8) (x := 0#8) (y := 0#8) (sp := 0xFF#8) (p := 0x20#8) (pc := 0x0200#16) (mem := []) rfl⟩

/-- Both extremes of the address space, written over and erased. -/
theorem witness_ReadAfterWrite :
    plain.mem.wf = true ∧ (plain.writeByte 0xFFFF#16 0x01#8).mem = [(0xFFFF, 0x01#8)] ∧
      ((plain.writeByte 0x0000#16 0x01#8).writeByte 0x0000#16 0x00#8).mem = [] := by decide

theorem witness_MemoriesAreTheirContents :
    Memory.wf [(0, 0x01#8), (65535, 0x02#8)] = true ∧ Memory.wf [(0, 0x00#8)] = false ∧ Memory.wf [(65536, 0x01#8)] = false ∧
      Memory.wf [(1, 0x01#8), (0, 0x01#8)] = false := by decide

theorem witness_PushesStayInTheStackPage : ∀ i ∈ [Instr.pha, .php, .jsrAbs 0x0000#16, .brk],
    i.mnemonic ∈ [Mnemonic.pha, .php, .jsr, .brk] := by decide

/-- One input for each clause, the stored byte among the next three: STA and INC to the next opcode, PHA at the end of the
stack page over the next opcode, JSR into its own pushes, BRK through a vector into its own pushes. -/
theorem witness_StoreSeenByNextFetch :
    plain.mem.wf = true ∧
      ((Instr.staAbs 0x0203#16).mnemonic, Reg8.a) ∈ [(Mnemonic.sta, Reg8.a), (.stx, .x), (.sty, .y)] ∧
      (Instr.staAbs 0x0203#16).operand = .memory (.absolute 0x0203#16) ∧
      effectiveAddress (.absolute 0x0203#16) plain = plain.pc + BitVec.ofNat 16 (Instr.staAbs 0x0203#16).length ∧
      (Instr.incAbs 0x0203#16).operand = .memory (.absolute 0x0203#16) ∧
      ((Instr.incAbs 0x0203#16).mnemonic, 1) ∈ modifiedByte (plain.readByte 0x0203#16).toNat (plain.flag .c).toNat ∧
      (launch 0x01FE#16 [0x48#8] []).pc + 1#16 = 0x0100#16 ||| (launch 0x01FE#16 [0x48#8] []).s.setWidth 16 ∧
      (launch 0x0200#16 [0x20#8, 0xFE#8, 0x01#8] []).readWord 0x0201#16 =
        0x0100#16 ||| (plain.s - 1#8).setWidth 16 ∧
      (launch 0x0200#16 [0x00#8] [(0xFFFE, 0xFD#8), (0xFFFF, 0x01#8)]).mem.wf = true ∧
      (launch 0x0200#16 [0x00#8] [(0xFFFE, 0xFD#8), (0xFFFF, 0x01#8)]).readWord 0xFFFE#16 =
        0x0100#16 ||| (plain.s - 2#8).setWidth 16 := by decide

/-- JSR in the stack page, its operand under its own pushes; STA over its own operand. -/
theorem witness_InstructionsUseTheirOldBytes :
    (launch 0x01FD#16 [0x20#8, 0x34#8, 0x12#8] []).mem.wf = true ∧ (launch 0x01FD#16 [0x20#8, 0x34#8, 0x12#8] []).runState = .ready ∧
      (launch 0x01FD#16 [0x20#8, 0x34#8, 0x12#8] []).readByte 0x01FD#16 = 0x20#8 ∧
      (launch 0x0600#16 [0x8D#8, 0x01#8, 0x06#8] []).mem.wf = true ∧
      (launch 0x0600#16 [0x8D#8, 0x01#8, 0x06#8] []).readByte 0x0600#16 = 0x8D#8 := by decide

/-- STA over the pointer of its own indirect indexed mode, and INC over its own operand byte, at 0x0010 in the zero page. -/
theorem witness_InstructionsUseTheirOldBytes_modes :
    let s := launch 0x0010#16 [0x91#8, 0x20#8] [(0x0020, 0x20#8)]
    let u := launch 0x0010#16 [0xE6#8, 0x11#8] []
    s.mem.wf = true ∧ s.runState = .ready ∧ decode (fetchBytes s) = .ok (.staIzy 0x20#8, [0x00#8]) ∧
      (Instr.staIzy 0x20#8).operand = .memory (.indirectIndexed 0x20#8) ∧
      effectiveAddress (.indirectIndexed 0x20#8) s = 0x0020#16 ∧
      ((Instr.staIzy 0x20#8).mnemonic, Reg8.a) ∈ [(Mnemonic.sta, Reg8.a), (.stx, .x), (.sty, .y)] ∧
      u.mem.wf = true ∧ u.runState = .ready ∧ decode (fetchBytes u) = .ok (.incZp 0x11#8, [0x00#8]) ∧
      (Instr.incZp 0x11#8).operand = .memory (.zeroPage 0x11#8) ∧
      ((Instr.incZp 0x11#8).mnemonic, 0x12) ∈ modifiedByte (u.readByte 0x0011#16).toNat (u.flag .c).toNat :=
  ⟨by decide, rfl, rfl, rfl, by decide, by decide, by decide, rfl, rfl, rfl, by decide⟩

/-- PHA, PHP and BRK over their own opcode byte, at the end of the stack page. -/
theorem witness_InstructionsUseTheirOldBytes_pushes :
    (launch 0x01FF#16 [0x48#8] []).mem.wf = true ∧ (launch 0x01FF#16 [0x48#8] []).readByte 0x01FF#16 = 0x48#8 ∧
      (launch 0x01FF#16 [0x08#8] []).mem.wf = true ∧ (launch 0x01FF#16 [0x08#8] []).readByte 0x01FF#16 = 0x08#8 ∧
      (launch 0x01FF#16 [0x00#8] []).mem.wf = true ∧ (launch 0x01FF#16 [0x00#8] []).readByte 0x01FF#16 = 0x00#8 := by decide

theorem witness_OperandIsTheByteAtTheEffectiveAddress :
    decode (fetchBytes (launch 0xFFFF#16 [0xA9#8] [(0x0000, 0x05#8)])) = .ok (.ldaImm 0x05#8, [0x00#8]) ∧
      (Instr.ldaImm 0x05#8).operand = .memory (.immediate 0x05#8) := ⟨rfl, rfl⟩

/-- On and across a page, and across the top of memory. -/
theorem witness_PageCrossingComparesHighBytes :
    pageCrossed (.absoluteX 0x12FE#16) { plain with x := 0x01#8 } = false ∧
      pageCrossed (.absoluteY 0x12FF#16) { plain with y := 0x01#8 } = true ∧
      pageCrossed (.absoluteX 0xFFFF#16) { plain with x := 0x01#8 } = true ∧
      pageCrossed (.indirectIndexed 0xFF#8) { launch 0x0200#16 [] [(0x00FF, 0xFF#8)] with y := 0x01#8 } = true := by decide

theorem witness_LoadResult :
    ((Instr.ldaImm 0x00#8).mnemonic, Reg8.a) ∈ [(Mnemonic.lda, Reg8.a), (.ldx, .x), (.ldy, .y)] ∧
      (Instr.ldaImm 0x00#8).operand = .memory (.immediate 0x00#8) ∧
      ((Instr.ldxZpy 0xFF#8).mnemonic, Reg8.x) ∈ [(Mnemonic.lda, Reg8.a), (.ldx, .x), (.ldy, .y)] ∧
      ((Instr.ldyAbx 0xFFFF#16).mnemonic, Reg8.y) ∈ [(Mnemonic.lda, Reg8.a), (.ldx, .x), (.ldy, .y)] := by decide

theorem witness_StoreResult :
    ((Instr.staAbx 0xFFFF#16).mnemonic, Reg8.a) ∈ [(Mnemonic.sta, Reg8.a), (.stx, .x), (.sty, .y)] ∧
      ((Instr.stxZpy 0xFF#8).mnemonic, Reg8.x) ∈ [(Mnemonic.sta, Reg8.a), (.stx, .x), (.sty, .y)] ∧
      ((Instr.styZpx 0xFF#8).mnemonic, Reg8.y) ∈ [(Mnemonic.sta, Reg8.a), (.stx, .x), (.sty, .y)] ∧
      (Instr.staAbx 0xFFFF#16).operand = .memory (.absoluteX 0xFFFF#16) ∧ plain.mem.wf = true := by decide

theorem witness_AdcResult :
    (Instr.adcIzy 0xFF#8).mnemonic = .adc ∧ (Instr.adcIzy 0xFF#8).operand = .memory (.indirectIndexed 0xFF#8) := ⟨rfl, rfl⟩

theorem witness_SbcResult :
    (Instr.sbcIzx 0xFF#8).mnemonic = .sbc ∧ (Instr.sbcIzx 0xFF#8).operand = .memory (.indexedIndirect 0xFF#8) := ⟨rfl, rfl⟩

theorem witness_OverflowIsSignedOverflow :
    (Instr.adcImm 0x50#8).operand = .memory (.immediate 0x50#8) ∧ (Instr.adcImm 0x50#8).mnemonic = .adc ∧
      (Instr.sbcImm 0xB0#8).operand = .memory (.immediate 0xB0#8) ∧ (Instr.sbcImm 0xB0#8).mnemonic = .sbc := by decide

theorem witness_SbcIsAdcOfComplement :
    (Instr.sbcZp 0x10#8).mnemonic = .sbc ∧ (Instr.sbcZp 0x10#8).operand = .memory (.zeroPage 0x10#8) := ⟨rfl, rfl⟩

theorem witness_DecimalAndInterruptFlagsInert :
    Flag.d ∈ [Flag.d, .i] ∧ (Instr.adcImm 0x09#8).mnemonic ∉ [Mnemonic.php, .brk] ∧
      plain.flag .d ≠ (plain.setFlag .d true).flag .d := by decide

theorem witness_LogicResult : ∀ i ∈ [Instr.andZp 0x10#8, .oraZp 0x10#8, .eorZp 0x10#8],
    i.mnemonic ∈ [Mnemonic.and, .ora, .eor] ∧ i.operand = .memory (.zeroPage 0x10#8) := by decide

theorem witness_BitResult :
    (Instr.bitAbs 0x3000#16).mnemonic = .bit ∧ (Instr.bitAbs 0x3000#16).operand = .memory (.absolute 0x3000#16) := ⟨rfl, rfl⟩

theorem witness_ShiftResult_accumulator : ∀ i ∈ [Instr.aslAcc, .lsrAcc, .rolAcc, .rorAcc],
    i.mnemonic ∈ [Mnemonic.asl, .lsr, .rol, .ror] ∧ i.operand = .accumulator := by decide

theorem witness_ShiftResult_memory : plain.mem.wf = true ∧
    ∀ i ∈ [Instr.aslAbx 0xFFFF#16, .lsrAbx 0xFFFF#16, .rolAbx 0xFFFF#16, .rorAbx 0xFFFF#16],
      i.mnemonic ∈ [Mnemonic.asl, .lsr, .rol, .ror] ∧ i.operand = .memory (.absoluteX 0xFFFF#16) := by decide

theorem witness_CompareResult : ∀ p ∈ [(Instr.cmpImm 0x10#8, Reg8.a), (.cpxImm 0x10#8, .x), (.cpyImm 0x10#8, .y)],
    (p.1.mnemonic, p.2) ∈ [(Mnemonic.cmp, Reg8.a), (.cpx, .x), (.cpy, .y)] ∧ p.1.operand = .memory (.immediate 0x10#8) := by decide

theorem witness_IncDecMemoryResult : plain.mem.wf = true ∧
    ∀ i ∈ [Instr.incZpx 0xFF#8, .decZpx 0xFF#8], i.mnemonic ∈ [Mnemonic.inc, .dec] ∧ i.operand = .memory (.zeroPageX 0xFF#8) := by
  decide

theorem witness_IncDecRegisterResult : ∀ p ∈ [(Instr.inx, Reg8.x, 1), (.iny, .y, 1), (.dex, .x, 255), (.dey, .y, 255)],
    p ∈ [(Instr.inx, Reg8.x, 1), (.iny, .y, 1), (.dex, .x, 255), (.dey, .y, 255)] := by decide

/-- A branch taken at the end of its range across a page, and one not taken. -/
theorem witness_BranchResult :
    branchCondition (Instr.bcs 0x80#8).mnemonic = some (.c, true) ∧ (Instr.bcs 0x80#8).operand = .relative 0x80#8 ∧
      ({ plain with p := 0x21#8 } : State).flag .c = true ∧ plain.flag .c ≠ true := by decide

theorem witness_JmpResult :
    (Instr.jmpInd 0x30FF#16).mnemonic = .jmp ∧ (Instr.jmpInd 0x30FF#16).operand = .memory (.indirect 0x30FF#16) ∧
      (Instr.jmpAbs 0x1234#16).operand = .memory (.absolute 0x1234#16) := ⟨rfl, rfl, rfl⟩

/-- JSR, RTS past a JSR, and BRK ask for memory in canonical form. -/
theorem witness_JsrResult : (launch 0xFFFE#16 [0x20#8, 0x34#8] [(0x0000, 0x12#8)]).mem.wf = true := by decide

theorem witness_PushResult : ∀ p ∈ [(Instr.pha, plain.a), (.php, plain.p ||| 0x30#8)],
    p ∈ [(Instr.pha, plain.a), (.php, plain.p ||| 0x30#8)] ∧ plain.mem.wf = true := by decide

theorem witness_PlpUndoesPhp : Inv plain ∧ plain.p = 0x20#8 := ⟨inv_plain, rfl⟩

theorem witness_BrkResult : (launch 0xFFFE#16 [0x00#8] []).mem.wf = true := by decide

theorem witness_RtiReturnsFromBrk : Inv faulted ∧ Inv plain := ⟨inv_faulted, inv_plain⟩

theorem witness_FlagInstructionResult : (Instr.clv, Flag.v, false) ∈
    [(Instr.sec, Flag.c, true), (.clc, .c, false), (.sed, .d, true), (.cld, .d, false), (.sei, .i, true), (.cli, .i, false),
      (.clv, .v, false)] := by decide

theorem witness_TransferResult : (Instr.tsx, Reg8.s, Reg8.x) ∈
    [(Instr.tax, Reg8.a, Reg8.x), (.txa, .x, .a), (.tay, .a, .y), (.tya, .y, .a), (.tsx, .s, .x)] := by decide

theorem witness_OnlyTableFlagsWritten : Inv { plain with p := 0xEF#8 } :=
  ⟨rfl, rfl, rfl, by decide, fun _ => rfl, fun h => nomatch h⟩

/-- NOP meets every clause's hypothesis. -/
theorem witness_OnlyNamedWritersWrite :
    (Instr.nop).mnemonic ∉ [Mnemonic.lda, .adc, .sbc, .and, .ora, .eor, .txa, .tya, .pla] ∧ (Instr.nop).operand ≠ .accumulator ∧
      (Instr.nop).mnemonic ∉ [Mnemonic.ldx, .inx, .dex, .tax, .tsx] ∧ (Instr.nop).mnemonic ∉ [Mnemonic.ldy, .iny, .dey, .tay] ∧
      (Instr.nop).mnemonic ∉ [Mnemonic.txs, .pha, .php, .pla, .plp, .jsr, .rts, .rti, .brk] ∧
      (Instr.nop).mnemonic ∉ [Mnemonic.sta, .stx, .sty, .asl, .lsr, .rol, .ror, .inc, .dec, .pha, .php, .jsr, .brk] := by decide

/-- Both sides of the bound on the image, with and without an entry point. -/
theorem witness_ConstructResult :
    Memory.wf ({} : InitParams).mem = true ∧ (0xFFFF ≤ 0xFFFF ∧ 0xFFFF + [0xEA#8].length ≤ 65536) ∧
      ¬(0xFFFF ≤ 0xFFFF ∧ 0xFFFF + [0xEA#8, 0xEA#8].length ≤ 65536) ∧ ¬(65536 ≤ 0xFFFF ∧ 65536 + ([] : List Byte).length ≤ 65536) ∧
      (0x8000#16 : Word) ≠ 0#16 := by decide

theorem witness_InitializeAndFixtureResult :
    ({ plain with runState := .uninitialized } : State).runState = .uninitialized ∧ plain.runState ≠ .uninitialized ∧
      faulted.runState ≠ .uninitialized ∧ Memory.wf [] = true ∧ ((0xEF#8).getLsbD 5 = true ∧ (0xEF#8).getLsbD 4 = false) ∧
      ¬((0x30#8).getLsbD 5 = true ∧ (0x30#8).getLsbD 4 = false) := by decide

end Sys2Proof.Tests
end

/-! SUPPORT. What every instruction does to P (10_state.md R29, R30, R41): the flags outside its row of the flag table, and
the two fixed bits. -/

namespace Sys2Proof.Machine

open Sys2Proof

/-! ## What a kept status says of the two fixed bits -/

/-- Bit 5 of P is no flag's, so it is among the kept bits whatever flags may change. -/
theorem StatusKept.reservedBit {w : List Flag} {s t : State} (h : StatusKept w s t) :
    t.p.getLsbD 5 = s.p.getLsbD 5 := h 5 (by decide) fun f _ => by cases f <;> decide

/-- Bit 4 of P is B's, so it is kept where B is not among the flags that may change. -/
theorem StatusKept.breakBit {w : List Flag} {s t : State} (h : StatusKept w s t) (hb : Flag.b ∉ w) :
    t.p.getLsbD 4 = s.p.getLsbD 4 :=
  h 4 (by decide) fun _ hf e => hb (Flag.bit_inj (g := .b) e ▸ hf)

/-- A pulled status (R39) may change all seven flags; bit 5 it keeps, where it was 1. -/
theorem StatusKept.of_statusFromByte {s t : State} {b : Byte} (h5 : s.p.getLsbD 5 = true)
    (hp : t.p = statusFromByte b) : StatusKept [.n, .v, .b, .d, .i, .z, .c] s t := fun k hk hw => by
  have hk5 : k = 5 := by
    simp only [List.forall_mem_cons, List.not_mem_nil, IsEmpty.forall_iff, implies_true, and_true, Flag.bit] at hw
    omega
  rw [hp, statusFromByte_bit b hk, if_pos hk5, hk5, h5]

/-! ## The flag table (R41) -/

theorem flagsWritten_of_branch {mn : Mnemonic} {c : Flag × Bool} (h : branchCondition mn = some c) :
    flagsWritten mn = [] := by
  revert h
  cases mn <;> simp [branchCondition, flagsWritten]

/-- From `s` to `t`, only the flags that the table gives `mn` may change, and B is not one of them. -/
def TableKept (mn : Mnemonic) (s t : State) : Prop :=
  Flag.b ∉ flagsWritten mn ∧ StatusKept (flagsWritten mn) s t

theorem TableKept.of_row {mn : Mnemonic} {w : List Flag} {s t : State} (e : flagsWritten mn = w)
    (h : StatusKept w s t) (hb : Flag.b ∉ w := by decide) : TableKept mn s t := by
  unfold TableKept
  rw [e]
  exact ⟨hb, h⟩

/-- What an effect does to P: only flags of its row of the table change, or the instruction is one of the two, RTI and PLP,
that take the whole of P from a pulled byte. -/
theorem effect_status {i : Instr} {f : State → State} (he : Effect i f) {s : State} (hw : s.mem.wf = true) :
    TableKept i.mnemonic s (f s) ∨
      flagsWritten i.mnemonic = [.n, .v, .b, .d, .i, .z, .c] ∧ ∃ b, (f s).p = statusFromByte b := by
  cases he with
  | rti _ _ h => exact .inr ⟨h ▸ rfl, _, (returnFromTrap_fields _ s).2.2.2.2.1⟩
  | plp _ _ h => exact .inr ⟨h ▸ rfl, _, (pullStatus_spec _ s).1⟩
  | load _ _ h =>
    exact .inl (.of_row ((by decide : ∀ p ∈ _, flagsWritten p.1 = [.n, .z]) _ h) (load_spec _ _ _ s).2.2.2.2.2.status)
  | store _ _ h =>
    exact .inl (.of_row ((by decide : ∀ p ∈ _, flagsWritten p.1 = []) _ h) (store_spec _ _ _ hw).2.2.2.2.2.status)
  | adc _ _ h => exact .inl (.of_row (h ▸ rfl) (addWithCarry_spec _ _ s).2.2.2.2.2.2.2.status)
  | sbc _ _ h => exact .inl (.of_row (h ▸ rfl) (subtractWithBorrow_spec _ _ s).2.2.2.2.2.2.2.status)
  | and _ _ h | ora _ _ h | eor _ _ h => exact .inl (.of_row (h ▸ rfl) (logic_spec _ _ _ s).2.2.2.2.2.status)
  | bit _ _ h => exact .inl (.of_row (h ▸ rfl) (bitTest_spec _ _ s).2.2.2.2.2.2.status)
  | aslAcc _ _ h | lsrAcc _ _ h | rolAcc _ _ h | rorAcc _ _ h =>
    exact .inl (.of_row (h ▸ rfl) (shiftAccumulator_spec _ _ s).2.2.2.2.2.2.status)
  | aslMem _ _ h | lsrMem _ _ h | rolMem _ _ h | rorMem _ _ h =>
    exact .inl (.of_row (h ▸ rfl) (shiftMemory_spec _ _ _ hw).2.2.2.2.2.2.status)
  | compare _ _ h =>
    exact .inl (.of_row ((by decide : ∀ p ∈ _, flagsWritten p.1 = [.n, .z, .c]) _ h)
      (compareRegister_spec _ _ _ s).2.2.2.2.2.status)
  | inc _ _ h | dec _ _ h => exact .inl (.of_row (h ▸ rfl) (modifyMemory_spec _ _ _ hw).2.2.2.2.2.status)
  | incReg _ _ h | decReg _ _ h =>
    exact .inl (.of_row ((by decide : ∀ p ∈ _, flagsWritten p.1 = [.n, .z]) _ h)
      (modifyRegister_spec _ _ _ s).2.2.2.2.2.status)
  | branch _ _ h => exact .inl (.of_row (flagsWritten_of_branch h) (branch_spec _ _ _ _ s).2.2.2.2.status)
  | jump _ _ h => exact .inl (.of_row (h ▸ rfl) (jump_spec _ _ s).2.2.2.2.status)
  | call _ _ h => exact .inl (.of_row (h ▸ rfl) (callSubroutine_spec _ _ hw).2.2.2.2.2.2.2.status)
  | rts _ _ h => exact .inl (.of_row (h ▸ rfl) (returnFromSubroutine_spec _ s).2.2.2.2.2.status)
  | pha _ _ h => exact .inl (.of_row (h ▸ rfl) (pushAccumulator_spec _ hw).2.2.2.2.2.2.status)
  | php _ _ h => exact .inl (.of_row (h ▸ rfl) (pushStatus_spec _ hw).2.2.2.2.2.2.status)
  | pla _ _ h => exact .inl (.of_row (h ▸ rfl) (pullAccumulator_spec _ s).2.2.2.2.2.2.status)
  | flag _ _ h =>
    obtain ⟨e, hb⟩ := (by decide : ∀ p ∈ _, flagsWritten p.1 = [p.2.1] ∧ Flag.b ∉ [p.2.1]) _ h
    exact .inl (.of_row e (writeFlag_spec _ _ _ s).2.2.2.2.status hb)
  | transfer _ _ h =>
    exact .inl (.of_row ((by decide : ∀ p ∈ _, flagsWritten p.1 = [.n, .z]) _ h)
      (transfer_spec _ _ _ s).2.2.2.2.2.status)
  | txs _ _ h => exact .inl (.of_row (h ▸ rfl) (transferToStackPointer_spec _ s).2.2.2.2.2.status)
  | nop _ _ h => exact .inl (.of_row (w := []) (h ▸ rfl) (.refl rfl))
  | brk _ _ h =>
    have hi : StatusKept [.i] s (s.setFlag .i true) := (StatusKept.refl rfl).setFlag true (List.mem_singleton_self _)
    exact .inl (.of_row (h ▸ rfl) (hi.of_p (takeTrap_fields _ s).2.2.2.2.1))

/-- The flag table and the two fixed bits together: what an effect leaves of a legal P. -/
theorem effect_legalStatus {i : Instr} {f : State → State} (he : Effect i f) {s : State} (h5 : s.p.getLsbD 5 = true)
    (h4 : s.p.getLsbD 4 = false) (hw : s.mem.wf = true) :
    StatusKept (flagsWritten i.mnemonic) s (f s) ∧ (f s).p.getLsbD 5 = true ∧ (f s).p.getLsbD 4 = false := by
  rcases effect_status he hw with ⟨hb, hk⟩ | ⟨e, b, hp⟩
  · exact ⟨hk, hk.reservedBit.trans h5, (hk.breakBit hb).trans h4⟩
  · have hk := StatusKept.of_statusFromByte h5 hp
    exact ⟨e ▸ hk, hk.reservedBit.trans h5, hp ▸ statusFromByte_bit b (by decide)⟩

/-- Settles O57: every effect keeps the bits outside its row of the flag table and the two fixed bits (`effect_legalStatus`). -/
theorem onlyTableFlagsWritten : Obligations.OnlyTableFlagsWritten := by
  intro i s hs
  obtain ⟨f, hf, he⟩ := exec_effect i
  exact ⟨f s, hf s, effect_legalStatus he hs.reservedBit hs.breakBit hs.memory⟩

end Sys2Proof.Machine

/-! SUPPORT. Which instructions write a register or memory (10_state.md R21–R23, R25; 20_memory.md R62). -/

namespace Sys2Proof.Machine

open Sys2Proof

/-! ## The registers -/

/-- The mnemonics that the rule of a register names as its writers; for A the accumulator shifts come beside them. -/
def regWriters : Reg8 → List Mnemonic
  | .a => [.lda, .adc, .sbc, .and, .ora, .eor, .txa, .tya, .pla]
  | .x => [.ldx, .inx, .dex, .tax, .tsx]
  | .y => [.ldy, .iny, .dey, .tay]
  | .s => [.txs, .pha, .php, .pla, .plp, .jsr, .rts, .rti, .brk]

/-- An instruction that the rule of `r` names: by its mnemonic, or as a shift of the accumulator. -/
def WritesReg (i : Instr) (r : Reg8) : Prop := i.mnemonic ∈ regWriters r ∨ r = .a ∧ i.operand = .accumulator

/-- Every register that may change from `s` to `t` has `i` among its named writers. -/
def WritersKept (i : Instr) (s t : State) : Prop := ∀ r, ¬WritesReg i r → t.reg r = s.reg r

theorem WritersKept.of_regs {i : Instr} {s t : State} {regs : List Reg8}
    (hi : ∀ r ∈ regs, i.mnemonic ∈ regWriters r) (h : RegsKept regs s t) : WritersKept i s t :=
  fun r hr => h r fun hm => hr (.inl (hi r hm))

theorem WritersKept.of_none {i : Instr} {s t : State} (h : RegsKept [] s t) : WritersKept i s t :=
  .of_regs (List.forall_mem_nil _) h

theorem WritersKept.of_one {i : Instr} {s t : State} {r : Reg8} (hi : i.mnemonic ∈ regWriters r)
    (h : RegsKept [r] s t) : WritersKept i s t := .of_regs (List.forall_mem_singleton.mpr hi) h

theorem WritersKept.of_stack {i : Instr} {s t : State} (hi : i.mnemonic ∈ regWriters .s) (ha : t.a = s.a)
    (hx : t.x = s.x) (hy : t.y = s.y) : WritersKept i s t :=
  .of_one hi (.of_fields (fun _ => ha) (fun _ => hx) (fun _ => hy) fun h => absurd (List.mem_singleton_self _) h)

/-- A store, whatever the form of memory, leaves the registers. -/
theorem store_regs (r : Reg8) (m : MemOperand) (base : Nat) (s : State) : RegsKept [] s (store r m base s) :=
  (RegsKept.refl rfl rfl rfl rfl : RegsKept [] s s).of_reg fun q => by simp [store]

theorem shiftMemory_regs (g : Byte → Bool → ShiftResult) (m : MemOperand) (base : Nat) (s : State) :
    RegsKept [] s (shiftMemory g m base s) :=
  (RegsKept.refl rfl rfl rfl rfl : RegsKept [] s s).of_reg fun q => by simp [shiftMemory]

theorem modifyMemory_regs (g : Byte → Byte) (m : MemOperand) (base : Nat) (s : State) :
    RegsKept [] s (modifyMemory g m base s) :=
  (RegsKept.refl rfl rfl rfl rfl : RegsKept [] s s).of_reg fun q => by simp [modifyMemory]

/-- An effect changes a register only if the register's rule names the instruction. -/
theorem effect_writersKept {i : Instr} {f : State → State} (he : Effect i f) (s : State) : WritersKept i s (f s) := by
  cases he with
  | load _ _ h =>
    exact .of_one ((by decide : ∀ p ∈ _, p.1 ∈ regWriters p.2) _ h) (load_spec _ _ _ s).2.2.2.2.2.regs
  | store => exact .of_none (store_regs _ _ _ s)
  | adc _ _ h => exact .of_one (r := .a) (h ▸ by decide) (addWithCarry_spec _ _ s).2.2.2.2.2.2.2.regs
  | sbc _ _ h => exact .of_one (r := .a) (h ▸ by decide) (subtractWithBorrow_spec _ _ s).2.2.2.2.2.2.2.regs
  | and _ _ h | ora _ _ h | eor _ _ h =>
    exact .of_one (r := .a) (h ▸ by decide) (logic_spec _ _ _ s).2.2.2.2.2.regs
  | bit => exact .of_none (bitTest_spec _ _ s).2.2.2.2.2.2.regs
  | aslAcc ho | lsrAcc ho | rolAcc ho | rorAcc ho =>
    exact fun r hr => (shiftAccumulator_spec _ _ s).2.2.2.2.2.2.regs r fun hm =>
      hr (.inr ⟨List.mem_singleton.mp hm, ho⟩)
  | aslMem | lsrMem | rolMem | rorMem => exact .of_none (shiftMemory_regs _ _ _ s)
  | compare => exact .of_none (compareRegister_spec _ _ _ s).2.2.2.2.2.regs
  | inc | dec => exact .of_none (modifyMemory_regs _ _ _ s)
  | incReg _ _ h | decReg _ _ h =>
    exact .of_one ((by decide : ∀ p ∈ _, p.1 ∈ regWriters p.2) _ h) (modifyRegister_spec _ _ _ s).2.2.2.2.2.regs
  | branch => exact .of_none (branch_spec _ _ _ _ s).2.2.2.2.regs
  | jump => exact .of_none (jump_spec _ _ s).2.2.2.2.regs
  | call _ _ h => exact .of_stack (h ▸ by decide) rfl rfl rfl
  | rts _ _ h => exact .of_one (r := .s) (h ▸ by decide) (returnFromSubroutine_spec _ s).2.2.2.2.2.regs
  | rti _ _ h =>
    obtain ⟨ha, hx, hy, -⟩ := returnFromTrap_fields _ s
    exact .of_stack (h ▸ by decide) ha hx hy
  | pha _ _ h | php _ _ h => exact .of_stack (h ▸ by decide) rfl rfl rfl
  | pla _ _ h => exact .of_regs (regs := [.a, .s]) (h ▸ by decide) (pullAccumulator_spec _ s).2.2.2.2.2.2.regs
  | plp _ _ h => exact .of_one (r := .s) (h ▸ by decide) (pullStatus_spec _ s).2.2.2.2.2.1
  | flag => exact .of_none (writeFlag_spec _ _ _ s).2.2.2.2.regs
  | transfer _ _ h =>
    exact .of_one ((by decide : ∀ p ∈ _, p.1 ∈ regWriters p.2.2) _ h) (transfer_spec _ _ _ s).2.2.2.2.2.regs
  | txs _ _ h => exact .of_one (r := .s) (h ▸ by decide) (transferToStackPointer_spec _ s).2.2.2.2.2.regs
  | nop => exact .of_none (.refl rfl rfl rfl rfl)
  | brk _ _ h =>
    obtain ⟨ha, hx, hy, -⟩ := takeTrap_fields _ s
    exact .of_stack (h ▸ by decide) ha hx hy

/-! ## Memory -/

/-- The stores, the read-modify-writes and the pushes. -/
def memWriters : List Mnemonic :=
  [.sta, .stx, .sty, .asl, .lsr, .rol, .ror, .inc, .dec, .pha, .php, .jsr, .brk]

/-- An effect leaves memory as it is, or the instruction is a named writer and the canonical form is kept. -/
theorem effect_memory {i : Instr} {f : State → State} (he : Effect i f) (s : State) :
    (f s).mem = s.mem ∨ i.mnemonic ∈ memWriters ∧ (s.mem.wf = true → (f s).mem.wf = true) := by
  cases he with
  | load => exact .inl (load_spec _ _ _ s).2.2.2.2.1
  | store _ _ h =>
    exact .inr ⟨(by decide : ∀ p ∈ _, p.1 ∈ memWriters) _ h, fun hw => (store_spec _ _ _ hw).2.2.2.2.1⟩
  | adc => exact .inl (addWithCarry_spec _ _ s).2.2.2.2.2.2.1
  | sbc => exact .inl (subtractWithBorrow_spec _ _ s).2.2.2.2.2.2.1
  | and | ora | eor => exact .inl (logic_spec _ _ _ s).2.2.2.2.1
  | bit => exact .inl (bitTest_spec _ _ s).2.2.2.2.2.1
  | aslAcc | lsrAcc | rolAcc | rorAcc => exact .inl (shiftAccumulator_spec _ _ s).2.2.2.2.2.1
  | aslMem _ _ h | lsrMem _ _ h | rolMem _ _ h | rorMem _ _ h =>
    exact .inr ⟨h ▸ by decide, fun hw => (shiftMemory_spec _ _ _ hw).2.2.2.2.2.1⟩
  | compare => exact .inl (compareRegister_spec _ _ _ s).2.2.2.2.1
  | inc _ _ h | dec _ _ h => exact .inr ⟨h ▸ by decide, fun hw => (modifyMemory_spec _ _ _ hw).2.2.2.2.1⟩
  | incReg | decReg => exact .inl (modifyRegister_spec _ _ _ s).2.2.2.2.1
  | branch => exact .inl (branch_spec _ _ _ _ s).2.2.2.1
  | jump => exact .inl (jump_spec _ _ s).2.2.2.1
  | call _ _ h => exact .inr ⟨h ▸ by decide, fun hw => (callSubroutine_spec _ _ hw).2.2.2.2.2.2.1⟩
  | rts => exact .inl (returnFromSubroutine_spec _ s).2.2.2.2.1
  | rti => exact .inl (returnFromTrap_fields _ s).2.2.2.2.2.2.1
  | pha _ _ h => exact .inr ⟨h ▸ by decide, fun hw => (pushAccumulator_spec _ hw).2.2.2.2.2.1⟩
  | php _ _ h => exact .inr ⟨h ▸ by decide, fun hw => (pushStatus_spec _ hw).2.2.2.2.2.1⟩
  | pla => exact .inl (pullAccumulator_spec _ s).2.2.2.2.2.1
  | plp => exact .inl (pullStatus_spec _ s).2.2.2.2.1
  | flag => exact .inl (writeFlag_spec _ _ _ s).2.2.2.1
  | transfer => exact .inl (transfer_spec _ _ _ s).2.2.2.2.1
  | txs => exact .inl (transferToStackPointer_spec _ s).2.2.2.2.1
  | nop => exact .inl rfl
  | brk _ _ h => exact .inr ⟨h ▸ by decide, fun hw => (takeTrap_memory _ hw).2.2.2.2⟩

/-- Settles O58: an effect changes a register only for the register's named writers (`effect_writersKept`), and memory only
for the named writers of memory (`effect_memory`). -/
theorem onlyNamedWritersWrite : Obligations.OnlyNamedWritersWrite := by
  intro i s
  obtain ⟨f, hf, he⟩ := exec_effect i
  have hr := effect_writersKept he s
  refine ⟨f s, hf s, fun hn ho => hr .a ?_, fun hn => hr .x ?_, fun hn => hr .y ?_, fun hn => hr .s ?_,
    fun hn => (effect_memory he s).resolve_right fun h => hn h.1⟩
  · exact not_or_intro hn fun h => ho h.2
  all_goals exact not_or_intro hn fun h => nomatch h.1

end Sys2Proof.Machine

/-! SUPPORT. The invariants (10_state.md R43, R46, R49; 70_reset_and_hazards.md R370–R375, R383): what an effect costs, that
a step keeps the invariants, and that every command of the host brings about states that have them. -/

namespace Sys2Proof.Machine

open Sys2Proof

/-! ## An instruction costs at most 7 cycles (R383) -/

/-- The base cost of a mnemonic's slowest row, for the three kinds that matter to the bound: a branch may cost two more, a
reading instruction one more, and a read-modify-write and BRK no more. -/
def slowestRow : Mnemonic → Nat
  | .bcc | .bcs | .bne | .beq | .bpl | .bmi | .bvc | .bvs => 2
  | .asl | .lsr | .rol | .ror | .inc | .dec | .brk => 7
  | _ => 6

theorem baseCycles_le_slowestRow (i : Instr) : i.baseCycles ≤ slowestRow i.mnemonic := by
  cases i <;> (dsimp only [Instr.baseCycles, Instr.opcode, encode, List.headD_cons, Instr.mnemonic]; decide)

theorem slowestRow_le_seven (mn : Mnemonic) : slowestRow mn ≤ 7 := by cases mn <;> decide

theorem slowestRow_of_branch {mn : Mnemonic} {c : Flag × Bool} (h : branchCondition mn = some c) :
    slowestRow mn = 2 := by
  revert h
  cases mn <;> simp [branchCondition, slowestRow]

theorem pageExtra_le_one (m : MemOperand) (s : State) : pageExtra m s ≤ 1 := by
  unfold pageExtra
  split <;> decide

/-- A cost byte holds a number within the bound as it is. -/
theorem cost_le_seven {b : Byte} {n : Nat} (h : b = BitVec.ofNat 8 n) (hn : n ≤ 7) : b.toNat ≤ 7 := by
  rw [h, BitVec.toNat_ofNat]
  omega

theorem baseCost_le_seven {i : Instr} {b : Byte} {base : Nat} (hb : i.baseCycles = base) (h : b = BitVec.ofNat 8 base) :
    b.toNat ≤ 7 :=
  cost_le_seven h (hb ▸ (baseCycles_le_slowestRow i).trans (slowestRow_le_seven _))

theorem readCost_le_seven {i : Instr} {m : MemOperand} {s : State} {b : Byte} {base : Nat} (hb : i.baseCycles = base)
    (hs : slowestRow i.mnemonic = 6) (h : b = BitVec.ofNat 8 (base + pageExtra m s)) : b.toNat ≤ 7 := by
  have := baseCycles_le_slowestRow i
  have := pageExtra_le_one m s
  exact cost_le_seven h (by omega)

theorem branch_cost_le_seven {i : Instr} {f : Flag} {wanted : Bool} {rel : Byte} {base : Nat} (s : State)
    (hb : i.baseCycles = base) (hs : slowestRow i.mnemonic = 2) : (branch f wanted rel base s).cyclesLast.toNat ≤ 7 := by
  have := baseCycles_le_slowestRow i
  refine cost_le_seven (branch_spec f wanted rel base s).2.1 ?_
  split_ifs <;> omega

/-- Every effect costs at most 7 cycles. -/
theorem effect_cost_le_seven {i : Instr} {f : State → State} (he : Effect i f) (s : State) :
    (f s).cyclesLast.toNat ≤ 7 := by
  cases he with
  | load _ hb h =>
    exact readCost_le_seven hb ((by decide : ∀ p ∈ _, slowestRow p.1 = 6) _ h) (load_spec _ _ _ s).2.2.2.1
  | adc _ hb h => exact readCost_le_seven hb (h ▸ rfl) (addWithCarry_spec _ _ s).2.2.2.2.2.1
  | sbc _ hb h => exact readCost_le_seven hb (h ▸ rfl) (subtractWithBorrow_spec _ _ s).2.2.2.2.2.1
  | and _ hb h | ora _ hb h | eor _ hb h => exact readCost_le_seven hb (h ▸ rfl) (logic_spec _ _ _ s).2.2.2.1
  | compare _ hb h =>
    exact readCost_le_seven hb ((by decide : ∀ p ∈ _, slowestRow p.1 = 6) _ h) (compareRegister_spec _ _ _ s).2.2.2.1
  | branch _ hb h => exact branch_cost_le_seven s hb (slowestRow_of_branch h)
  | _ _ hb => exact baseCost_le_seven hb rfl

theorem effect_mem_wf {i : Instr} {f : State → State} (he : Effect i f) {s : State} (hw : s.mem.wf = true) :
    (f s).mem.wf = true := by
  rcases effect_memory he s with h | ⟨-, h⟩
  · exact h ▸ hw
  · exact h hw

/-! ## Steps -/

/-- An effect keeps the invariants outside `Halted`. -/
theorem Inv.effect {i : Instr} {f : State → State} (he : Effect i f) {s : State} (hs : Inv s)
    (hr : s.runState ≠ .halted) : Inv (f s) := by
  obtain ⟨-, h5, h4⟩ := effect_legalStatus he hs.reservedBit hs.breakBit hs.memory
  obtain ⟨hrun, -, hfault, -⟩ := effect_control he s
  exact ⟨h5, h4, effect_mem_wf he hs.memory, effect_cost_le_seven he s,
    fun _ => hfault.trans (hs.noFault hr), fun h => absurd (hrun.symm.trans h) hr⟩

/-- Outside `Halted` the last opcode is no part of the invariants, so the fetch keeps them (40_dispatch.md R121). -/
theorem Inv.noteFetch {s : State} (hs : Inv s) (hr : s.runState ≠ .halted) : Inv (noteFetch s) :=
  ⟨hs.reservedBit, hs.breakBit, hs.memory, hs.cost, hs.noFault, fun h => absurd h hr⟩

/-- The fault entry on a byte with no table entry keeps the invariants (60_exceptions.md R341). -/
theorem Inv.haltWith {s : State} (hs : Inv s) (he : opcodeEntry (s.readByte s.pc) = none) :
    Inv (haltWith .unimplementedOpcode (s.readByte s.pc) (Machine.noteFetch s)) :=
  ⟨hs.reservedBit, hs.breakBit, hs.memory, hs.cost, fun h => absurd rfl h, fun _ => ⟨he, rfl, rfl⟩⟩

theorem Inv.step {s t : State} (hs : Inv s) (h : step s = .next t) : Inv t := by
  obtain ⟨hr, ⟨i, rest, -, hx⟩ | ⟨he, rfl⟩⟩ := step_cases h
  · have hn : s.runState ≠ .halted := hr ▸ nofun
    obtain ⟨f, rfl, hf⟩ := effect_of_exec hx
    exact (hs.noteFetch hn).effect hf hn
  · exact hs.haltWith he

/-- Settles O16, by the two things that a step can do: run an instruction's effect, or take the fault entry (`Inv.step`). -/
theorem stepKeepsInvariants : Obligations.StepKeepsInvariants := fun _ _ hs h => hs.step h

/-! ## The host's commands -/

/-- A state that the host sets up: legal status, memory in canonical form, no cost and no fault yet, not `Halted`. -/
theorem Inv.of_fresh {s : State} (hp : statusLegal s.p = true) (hw : s.mem.wf = true) (hc : s.cyclesLast = 0x00#8)
    (hf : s.fault = none) (hr : s.runState ≠ .halted) : Inv s := by
  simp only [statusLegal, Bool.and_eq_true, Bool.not_eq_true'] at hp
  obtain ⟨h5, h4⟩ := hp
  exact ⟨h5, h4, hw, by rw [hc]; decide, fun _ => hf, fun h => absurd h hr⟩

theorem entryBytes_length_le (ep : Option Word) : (entryBytes ep).length ≤ 2 := by
  unfold entryBytes
  split
  · decide
  · split <;> simp

theorem Inv.construct {ip : InitParams} {cfg : Config} {rom : List Byte} {la : Nat} {ep : Option Word} {s : State}
    (hi : initLegal ip = true) (h : construct ip cfg rom la ep = .next s) : Inv s := by
  obtain ⟨hp, hw⟩ := (Bool.and_eq_true _ _).mp hi
  unfold Machine.construct at h
  split at h
  · next hfit =>
    have hvec : Config.resetVector.toNat + (entryBytes ep).length ≤ 65536 := by
      have := entryBytes_length_le ep
      have : Config.resetVector.toNat = 0xFFFC := rfl
      omega
    cases h
    exact .of_fresh hp (Memory.wf_load _ hvec (Memory.wf_load rom hfit.2 hw)) rfl rfl nofun
  · cases h

theorem Inv.initializeCore {s t : State} (hs : Inv s) (h : initializeCore s = .next t) : Inv t := by
  unfold Machine.initializeCore at h
  split at h
  · next hr =>
    cases h
    exact ⟨hs.reservedBit, hs.breakBit, hs.memory, hs.cost, fun _ => hs.noFault (hr ▸ nofun), nofun⟩
  all_goals cases h

theorem Inv.fixture {cfg : Config} {a x y sp p : Byte} {pc : Word} {mem : Memory} {s : State}
    (h : fixture cfg a x y sp p pc mem = .next s) : Inv s := by
  unfold Machine.fixture at h
  split at h
  · next hl =>
    obtain ⟨hp, hw⟩ := (Bool.and_eq_true _ _).mp hl
    cases h
    exact .of_fresh hp hw rfl rfl nofun
  · cases h

/-- Settles O17, by induction on how the state was reached: each command of the host gives the invariants, and each step
keeps them. -/
theorem reachableStatesKeepInvariants : Obligations.ReachableStatesKeepInvariants := by
  intro s hs
  induction hs with
  | constructed hi h => exact .construct hi h
  | initialized _ h ih => exact ih.initializeCore h
  | launched h => exact .fixture h
  | stepped _ h ih => exact ih.step h

/-- Settles O18: the state after reset is one that the host sets up. -/
theorem resetSatisfiesInvariants : Obligations.ResetSatisfiesInvariants :=
  .of_fresh rfl State.reset_mem_wf rfl rfl nofun

end Sys2Proof.Machine

/-! SUPPORT. D and I decide nothing (10_state.md R33, R34; 43_arith_logic.md R197; 60_exceptions.md R348): two states that
differ in a flag which an instruction does not read go to states that differ in that flag at most. -/

namespace Sys2Proof.Machine

open Sys2Proof

/-- `u` is `s` but for the flag `f`. -/
structure AgreeBut (f : Flag) (s u : State) : Prop where
  rest   : u = { s with p := u.p }
  status : StatusKept [f] s u

namespace AgreeBut

variable {f : Flag} {s u : State}

/-! ## The two states agree on all that an instruction reads -/

theorem setFlag_self (s : State) (f : Flag) (b : Bool) : AgreeBut f s (s.setFlag f b) :=
  ⟨rfl, (StatusKept.refl rfl).setFlag b (List.mem_singleton_self f)⟩

theorem reg (h : AgreeBut f s u) (r : Reg8) : u.reg r = s.reg r := by
  rw [h.rest]
  cases r <;> rfl

theorem a (h : AgreeBut f s u) : u.a = s.a := h.reg .a
theorem x (h : AgreeBut f s u) : u.x = s.x := h.reg .x
theorem sp (h : AgreeBut f s u) : u.s = s.s := h.reg .s
theorem pc (h : AgreeBut f s u) : u.pc = s.pc := by rw [h.rest]
theorem mem (h : AgreeBut f s u) : u.mem = s.mem := by rw [h.rest]
theorem cyclesLast (h : AgreeBut f s u) : u.cyclesLast = s.cyclesLast := by rw [h.rest]
theorem cfg (h : AgreeBut f s u) : u.cfg = s.cfg := by rw [h.rest]

theorem flag (h : AgreeBut f s u) {g : Flag} (hg : f ≠ g) : u.flag g = s.flag g :=
  h.status g.bit g.bit_lt fun _ hm e => hg (Flag.bit_inj (List.mem_singleton.mp hm ▸ e))

theorem readByte (h : AgreeBut f s u) (w : Word) : u.readByte w = s.readByte w := by
  rw [State.readByte_eq, h.mem, State.readByte_eq]

theorem effectiveAddress (h : AgreeBut f s u) (m : MemOperand) : effectiveAddress m u = effectiveAddress m s := by
  rw [h.rest]
  cases m <;> rfl

theorem operandByte (h : AgreeBut f s u) (m : MemOperand) : operandByte m u = operandByte m s := by
  rw [h.rest]
  cases m <;> rfl

theorem pageExtra (h : AgreeBut f s u) (m : MemOperand) : pageExtra m u = pageExtra m s := by
  rw [h.rest]
  cases m <;> rfl

/-! ## The operations keep the agreement -/

/-- An operation that leaves P alone and does the same to the rest. -/
theorem of_rest {t v : State} (h : AgreeBut f s u) (hr : v = { t with p := v.p }) (ht : t.p = s.p)
    (hv : v.p = u.p) : AgreeBut f t v :=
  ⟨hr, fun k hk hw => by rw [hv, ht, h.status k hk hw]⟩

theorem setReg (h : AgreeBut f s u) (r : Reg8) (v : Byte) : AgreeBut f (s.setReg r v) (u.setReg r v) :=
  h.of_rest (by rw [h.rest]; cases r <;> rfl) (by simp) (by simp)

theorem setPc (h : AgreeBut f s u) (w : Word) : AgreeBut f (s.setPc w) (u.setPc w) :=
  h.of_rest (by rw [h.rest]; rfl) rfl rfl

theorem setCycles (h : AgreeBut f s u) (n : Nat) : AgreeBut f (s.setCycles n) (u.setCycles n) :=
  h.of_rest (by rw [h.rest]; rfl) rfl rfl

theorem writeByte (h : AgreeBut f s u) (w : Word) (v : Byte) : AgreeBut f (s.writeByte w v) (u.writeByte w v) :=
  h.of_rest (by rw [h.rest]; rfl) rfl rfl

theorem retire (h : AgreeBut f s u) (l n : Nat) : AgreeBut f (s.retire l n) (u.retire l n) :=
  h.of_rest (by rw [h.rest]; rfl) rfl rfl

theorem push (h : AgreeBut f s u) (v : Byte) : AgreeBut f (s.push v) (u.push v) :=
  h.of_rest (by rw [h.rest]; rfl) rfl rfl

theorem pushWord (h : AgreeBut f s u) (w : Word) : AgreeBut f (s.pushWord w) (u.pushWord w) :=
  (h.push _).push _

theorem pull (h : AgreeBut f s u) : AgreeBut f s.pull.2 u.pull.2 :=
  h.of_rest (by rw [h.rest]; rfl) rfl rfl

theorem pull_byte (h : AgreeBut f s u) : u.pull.1 = s.pull.1 := by
  rw [State.pull_byte, h.readByte, h.sp, State.pull_byte]

theorem pullWord (h : AgreeBut f s u) : AgreeBut f s.pullWord.2 u.pullWord.2 := h.pull.pull

theorem pullWord_word (h : AgreeBut f s u) : u.pullWord.1 = s.pullWord.1 := by
  rw [State.pullWord_word, h.readByte, h.readByte, h.sp, State.pullWord_word]

theorem setFlag (h : AgreeBut f s u) (g : Flag) (v : Bool) : AgreeBut f (s.setFlag g v) (u.setFlag g v) :=
  ⟨by rw [h.rest]; rfl, fun k hk hw => by
    rw [State.setFlag_p, State.setFlag_p, putFlag_bit _ _ _ hk, putFlag_bit _ _ _ hk, h.status k hk hw]⟩

theorem setNZ (h : AgreeBut f s u) (r : Byte) : AgreeBut f (s.setNZ r) (u.setNZ r) := (h.setFlag _ _).setFlag _ _

theorem writeP (h : AgreeBut f s u) (b : Byte) : AgreeBut f (s.writeP b) (u.writeP b) :=
  ⟨by rw [h.rest]; rfl, .refl rfl⟩

/-! ## The shared operations -/

theorem load (h : AgreeBut f s u) (r : Reg8) (m : MemOperand) (base : Nat) :
    AgreeBut f (load r m base s) (load r m base u) := by
  unfold Machine.load
  rw [h.operandByte, h.pageExtra]
  exact ((h.setReg _ _).setNZ _).retire _ _

theorem store (h : AgreeBut f s u) (r : Reg8) (m : MemOperand) (base : Nat) :
    AgreeBut f (store r m base s) (store r m base u) := by
  unfold Machine.store
  rw [h.effectiveAddress, h.reg]
  exact (h.writeByte _ _).retire _ _

theorem arithmetic (h : AgreeBut f s u) (r : ArithResult) : AgreeBut f (arithmetic r s) (arithmetic r u) :=
  (((h.setFlag _ _).setFlag _ _).setReg _ _).setNZ _

theorem addWithCarry (h : AgreeBut f s u) (hf : f ≠ .c) (m : MemOperand) (base : Nat) :
    AgreeBut f (addWithCarry m base s) (addWithCarry m base u) := by
  unfold Machine.addWithCarry
  rw [h.operandByte, h.pageExtra, h.a, h.flag hf]
  exact (h.arithmetic _).retire _ _

theorem subtractWithBorrow (h : AgreeBut f s u) (hf : f ≠ .c) (m : MemOperand) (base : Nat) :
    AgreeBut f (subtractWithBorrow m base s) (subtractWithBorrow m base u) := by
  unfold Machine.subtractWithBorrow
  rw [h.operandByte, h.pageExtra, h.a, h.flag hf]
  exact (h.arithmetic _).retire _ _

theorem logic (h : AgreeBut f s u) (g : Byte → Byte → Byte) (m : MemOperand) (base : Nat) :
    AgreeBut f (logic g m base s) (logic g m base u) := by
  unfold Machine.logic
  rw [h.operandByte, h.pageExtra, h.a]
  exact ((h.setReg _ _).setNZ _).retire _ _

theorem bitTest (h : AgreeBut f s u) (m : MemOperand) (base : Nat) :
    AgreeBut f (bitTest m base s) (bitTest m base u) := by
  unfold Machine.bitTest
  rw [h.operandByte, h.a]
  exact (((h.setFlag _ _).setFlag _ _).setFlag _ _).retire _ _

theorem shiftAccumulator (h : AgreeBut f s u) (hf : f ≠ .c) (g : Byte → Bool → ShiftResult) (base : Nat) :
    AgreeBut f (shiftAccumulator g base s) (shiftAccumulator g base u) := by
  unfold Machine.shiftAccumulator
  rw [h.a, h.flag hf]
  exact (((h.setReg _ _).setFlag _ _).setNZ _).retire _ _

theorem shiftMemory (h : AgreeBut f s u) (hf : f ≠ .c) (g : Byte → Bool → ShiftResult) (m : MemOperand) (base : Nat) :
    AgreeBut f (shiftMemory g m base s) (shiftMemory g m base u) := by
  unfold Machine.shiftMemory
  rw [h.effectiveAddress, h.operandByte, h.flag hf]
  exact (((h.writeByte _ _).setFlag _ _).setNZ _).retire _ _

theorem compareRegister (h : AgreeBut f s u) (r : Reg8) (m : MemOperand) (base : Nat) :
    AgreeBut f (compareRegister r m base s) (compareRegister r m base u) := by
  unfold Machine.compareRegister
  rw [h.operandByte, h.pageExtra, h.reg]
  exact ((h.setFlag _ _).setNZ _).retire _ _

theorem modifyMemory (h : AgreeBut f s u) (g : Byte → Byte) (m : MemOperand) (base : Nat) :
    AgreeBut f (modifyMemory g m base s) (modifyMemory g m base u) := by
  unfold Machine.modifyMemory
  rw [h.effectiveAddress, h.operandByte]
  exact ((h.writeByte _ _).setNZ _).retire _ _

theorem modifyRegister (h : AgreeBut f s u) (g : Byte → Byte) (r : Reg8) (base : Nat) :
    AgreeBut f (modifyRegister g r base s) (modifyRegister g r base u) := by
  unfold Machine.modifyRegister
  rw [h.reg]
  exact ((h.setReg _ _).setNZ _).retire _ _

theorem branch (h : AgreeBut f s u) {g : Flag} (hf : f ≠ g) (wanted : Bool) (rel : Byte) (base : Nat) :
    AgreeBut f (branch g wanted rel base s) (branch g wanted rel base u) := by
  unfold Machine.branch
  rw [h.flag hf, h.pc, h.cfg]
  dsimp only
  split
  · exact (h.setPc _).setCycles _
  · exact (h.setPc _).setCycles _

theorem jump (h : AgreeBut f s u) (m : MemOperand) (base : Nat) : AgreeBut f (jump m base s) (jump m base u) := by
  unfold Machine.jump
  rw [h.effectiveAddress]
  exact (h.setPc _).setCycles _

theorem callSubroutine (h : AgreeBut f s u) (m : MemOperand) (base : Nat) :
    AgreeBut f (callSubroutine m base s) (callSubroutine m base u) := by
  unfold Machine.callSubroutine
  rw [h.effectiveAddress, h.pc]
  exact ((h.pushWord _).setPc _).setCycles _

theorem returnFromSubroutine (h : AgreeBut f s u) (base : Nat) :
    AgreeBut f (returnFromSubroutine base s) (returnFromSubroutine base u) := by
  unfold Machine.returnFromSubroutine
  rw [h.pullWord_word]
  exact (h.pullWord.setPc _).setCycles _

theorem returnFromTrap (h : AgreeBut f s u) (base : Nat) :
    AgreeBut f (returnFromTrap base s) (returnFromTrap base u) := by
  have hp := h.pull.writeP s.pull.1
  unfold Machine.returnFromTrap
  rw [h.pull_byte]
  dsimp only
  rw [hp.pullWord_word]
  exact (hp.pullWord.setPc _).setCycles _

theorem pushAccumulator (h : AgreeBut f s u) (base : Nat) :
    AgreeBut f (pushAccumulator base s) (pushAccumulator base u) := by
  unfold Machine.pushAccumulator
  rw [h.a]
  exact (h.push _).retire _ _

theorem pullAccumulator (h : AgreeBut f s u) (base : Nat) :
    AgreeBut f (pullAccumulator base s) (pullAccumulator base u) := by
  unfold Machine.pullAccumulator
  rw [h.pull_byte]
  exact ((h.pull.setReg _ _).setNZ _).retire _ _

theorem pullStatus (h : AgreeBut f s u) (base : Nat) : AgreeBut f (pullStatus base s) (pullStatus base u) := by
  unfold Machine.pullStatus
  rw [h.pull_byte]
  exact (h.pull.writeP _).retire _ _

theorem transfer (h : AgreeBut f s u) (src dst : Reg8) (base : Nat) :
    AgreeBut f (transfer src dst base s) (transfer src dst base u) := by
  unfold Machine.transfer
  rw [h.reg]
  exact ((h.setReg _ _).setNZ _).retire _ _

theorem transferToStackPointer (h : AgreeBut f s u) (base : Nat) :
    AgreeBut f (transferToStackPointer base s) (transferToStackPointer base u) := by
  unfold Machine.transferToStackPointer
  rw [h.x]
  exact (h.setReg _ _).retire _ _

end AgreeBut

/-! ## Every instruction -/

/-- No branch tests D or I. -/
theorem branchCondition_flag {mn : Mnemonic} {c : Flag × Bool} (h : branchCondition mn = some c) :
    c.1 ∉ [Flag.d, .i] := by
  cases mn <;> cases h <;> decide

/-- An effect reads no D and no I, but for the two that push P: it keeps the agreement of two states that differ in one. -/
theorem effect_agreeBut {i : Instr} {g : State → State} (he : Effect i g) {f : Flag} (hf : f ∈ [Flag.d, .i])
    (hi : i.mnemonic ∉ [Mnemonic.php, .brk]) {s u : State} (h : AgreeBut f s u) : AgreeBut f (g s) (g u) := by
  have hc : f ≠ .c := fun e => absurd (e ▸ hf) (by decide)
  cases he with
  | load => exact h.load _ _ _
  | store => exact h.store _ _ _
  | adc => exact h.addWithCarry hc _ _
  | sbc => exact h.subtractWithBorrow hc _ _
  | and | ora | eor => exact h.logic _ _ _
  | bit => exact h.bitTest _ _
  | aslAcc | lsrAcc | rolAcc | rorAcc => exact h.shiftAccumulator hc _ _
  | aslMem | lsrMem | rolMem | rorMem => exact h.shiftMemory hc _ _ _
  | compare => exact h.compareRegister _ _ _
  | inc | dec => exact h.modifyMemory _ _ _
  | incReg | decReg => exact h.modifyRegister _ _ _
  | branch _ _ hb => exact h.branch (fun e => branchCondition_flag hb (e ▸ hf :)) _ _ _
  | jump => exact h.jump _ _
  | call => exact h.callSubroutine _ _
  | rts => exact h.returnFromSubroutine _
  | rti => exact h.returnFromTrap _
  | pha => exact h.pushAccumulator _
  | pla => exact h.pullAccumulator _
  | plp => exact h.pullStatus _
  | flag => exact (h.setFlag _ _).retire _ _
  | transfer => exact h.transfer _ _ _
  | txs => exact h.transferToStackPointer _
  | nop => exact h.retire _ _
  | php _ _ hm | brk _ _ hm => exact absurd (hm ▸ hi) (by decide)

/-- Settles O35: the state and the one with D or I written agree but for that flag, and every effect keeps the agreement
(`effect_agreeBut`). -/
theorem decimalAndInterruptFlagsInert : Obligations.DecimalAndInterruptFlagsInert := by
  intro i s f b hf hi
  obtain ⟨g, hg, he⟩ := exec_effect i
  have h := effect_agreeBut he hf hi (AgreeBut.setFlag_self s f b)
  exact ⟨g s, hg s, g (s.setFlag f b), hg _, fun r _ => h.reg r, h.pc, h.mem, h.cyclesLast, h.status⟩

end Sys2Proof.Machine

/-! SUPPORT. The memory (20_memory.md R60–R77): writes read back, memories are their contents, the pushes stay in the
stack page, and the next fetch reads what was stored. -/

namespace Sys2Proof.Machine

open Sys2Proof

/-! ## A write (R62) -/

theorem State.readByte_writeByte {s : State} (a b : Word) (v : Byte) (hw : s.mem.wf = true) :
    (s.writeByte a v).readByte b = if b = a then v else s.readByte b := by
  split
  · next h => rw [h, State.writeByte_read_self a v hw]
  · next h => exact State.writeByte_read_other v h

/-- Settles O20: a write reads back at its address alone (`State.readByte_writeByte`) and touches no field but memory. -/
theorem readAfterWrite : Obligations.ReadAfterWrite := fun _ a b v hw =>
  ⟨State.readByte_writeByte a b v hw, State.writeByte_wf a v hw, .refl rfl rfl rfl rfl, .refl rfl, ⟨rfl, rfl, rfl, rfl⟩,
    rfl, rfl⟩

/-! ## The canonical form (R60) -/

theorem Memory.wfFrom_cons {low a : Nat} {v : Byte} {m : Memory} :
    Memory.wfFrom low ((a, v) :: m) = true ↔
      low ≤ a ∧ a < 65536 ∧ v ≠ Config.unlistedByte ∧ m.wfFrom (a + 1) = true := by
  simp [Memory.wfFrom, and_assoc]

/-- The memory with a given content: all 65536 bytes loaded from address 0 into the empty memory. -/
def Memory.ofContent (f : Word → Byte) : Memory := Memory.load [] 0 (List.ofFn fun k : Fin 65536 => f (BitVec.ofFin k))

theorem Memory.wf_ofContent (f : Word → Byte) : (Memory.ofContent f).wf = true :=
  Memory.wf_load _ (by rw [List.length_ofFn]) rfl

theorem Memory.read_ofContent (f : Word → Byte) (a : Word) : (Memory.ofContent f).read a.toNat = f a := by
  have hk : (List.ofFn fun k : Fin 65536 => f (BitVec.ofFin k))[a.toNat]? = some (f a) := by
    rw [List.getElem?_ofFn, dif_pos a.isLt]
    rfl
  have h := Memory.read_load_self (m := []) (a := 0) _ (by rw [List.length_ofFn]) rfl hk
  rwa [Nat.zero_add] at h

/-- A memory tells its first cell from any memory that lists only higher addresses. -/
theorem Memory.read_ne_of_head {low a : Nat} {v : Byte} {r m : Memory} (h : Memory.wfFrom low ((a, v) :: r) = true)
    (hm : m.wfFrom (a + 1) = true) : Memory.read ((a, v) :: r) a ≠ m.read a := by
  obtain ⟨-, -, hv, -⟩ := Memory.wfFrom_cons.mp h
  rw [Memory.read_below (Nat.lt_succ_self a) hm]
  simpa [Memory.read] using hv

/-- Two memories in canonical form that read alike list the same cells: at the lower of two first addresses they would
differ, and behind equal first cells the induction goes on. -/
theorem Memory.eq_of_read_eq : ∀ {m₁ m₂ : Memory} {low : Nat}, m₁.wfFrom low = true → m₂.wfFrom low = true →
    (∀ a, a < 65536 → m₁.read a = m₂.read a) → m₁ = m₂
  | [], [], _, _, _, _ => rfl
  | [], (_, _) :: _, _, _, h₂, he =>
    absurd (he _ (Memory.wfFrom_cons.mp h₂).2.1).symm (Memory.read_ne_of_head h₂ rfl)
  | (_, _) :: _, [], _, h₁, _, he => absurd (he _ (Memory.wfFrom_cons.mp h₁).2.1) (Memory.read_ne_of_head h₁ rfl)
  | (a, v) :: r₁, (b, w) :: r₂, _, h₁, h₂, he => by
    obtain ⟨-, ha, hv, hr₁⟩ := Memory.wfFrom_cons.mp h₁
    obtain ⟨-, hb, hw, hr₂⟩ := Memory.wfFrom_cons.mp h₂
    rcases Nat.lt_trichotomy a b with hab | rfl | hab
    · exact absurd (he a ha) (Memory.read_ne_of_head h₁ (Memory.wfFrom_cons.mpr ⟨hab, hb, hw, hr₂⟩))
    · have hvw : v = w := by simpa [Memory.read] using he a ha
      have hr : r₁ = r₂ := Memory.eq_of_read_eq hr₁ hr₂ fun x hx => by
        by_cases hxa : x = a
        · rw [Memory.read_below (by omega) hr₁, Memory.read_below (by omega) hr₂]
        · simpa [Memory.read, hxa] using he x hx
      rw [hvw, hr]
    · exact absurd (he b hb).symm (Memory.read_ne_of_head h₂ (Memory.wfFrom_cons.mpr ⟨hab, ha, hv, hr₁⟩))

/-- Settles O21: `Memory.ofContent` has any given content, and reading alike is equality (`Memory.eq_of_read_eq`). -/
theorem memoriesAreTheirContents : Obligations.MemoriesAreTheirContents :=
  ⟨fun f => ⟨Memory.ofContent f, Memory.wf_ofContent f, Memory.read_ofContent f⟩,
    fun _ _ h₁ h₂ he => Memory.eq_of_read_eq h₁ h₂ fun a ha => he (BitVec.ofNatLT a ha)⟩

/-! ## The pushes (R66–R69) -/

/-- The instructions that push, by their constructors. -/
theorem pushing_instr {i : Instr} (h : i.mnemonic ∈ [Mnemonic.pha, .php, .jsr, .brk]) :
    i = .pha ∨ i = .php ∨ (∃ target, i = .jsrAbs target) ∨ i = .brk := by
  cases i <;> simp [Instr.mnemonic] at h ⊢

/-- A push writes in the stack page, whatever the form of memory. -/
theorem State.push_readByte_outside (s : State) (v : Byte) {a : Word} (ha : a.toNat / 256 ≠ 1) :
    (s.push v).readByte a = s.readByte a := by
  have hne : a ≠ stackAddress s.s := by
    rintro rfl
    have := stackAddress_toNat s.s
    omega
  rw [State.push, State.setReg_readByte, State.writeByte_read_other v hne]

theorem State.pushWord_readByte_outside (s : State) (w : Word) {a : Word} (ha : a.toNat / 256 ≠ 1) :
    (s.pushWord w).readByte a = s.readByte a :=
  ((s.push (hiByte w)).push_readByte_outside (loByte w) ha).trans (s.push_readByte_outside (hiByte w) ha)

/-- The trap entry reads as the state after its three pushes. -/
theorem takeTrap_readByte (base : Nat) (s : State) (a : Word) :
    (takeTrap base s).readByte a = ((s.pushWord (s.pc + 2#16)).push (pushImage s.p)).readByte a := rfl

/-- Settles O22: each of the four instructions changes memory by `push` and `pushWord` alone, which write in the stack page. -/
theorem pushesStayInTheStackPage : Obligations.PushesStayInTheStackPage := by
  intro i s hi
  rcases pushing_instr hi with rfl | rfl | ⟨target, rfl⟩ | rfl
  · exact ⟨pushAccumulator 3 s, rfl, fun a ha => s.push_readByte_outside s.a ha⟩
  · exact ⟨pushStatus 3 s, rfl, fun a ha => s.push_readByte_outside (pushImage s.p) ha⟩
  · exact ⟨callSubroutine (.absolute target) 6 s, rfl, fun a ha => s.pushWord_readByte_outside (s.pc + 2#16) ha⟩
  · refine ⟨takeTrap 7 s, rfl, fun a ha => ?_⟩
    rw [takeTrap_readByte, State.push_readByte_outside _ _ ha, State.pushWord_readByte_outside _ _ ha]

/-! ## The next fetch (R74, R77) -/

/-- Settles O23: what a writer stored reads back from the state it leaves (`exec_store`, `exec_modify` and the specs of the
pushing operations), and a byte that reads back is what the fetch reads (`fetchBytes_of_read`). -/
theorem storeSeenByNextFetch : Obligations.StoreSeenByNextFetch := by
  intro i s hw next ret vector a₀ a₁ a₂ Fetches
  have fetches {t : State} {a : Word} {v : Byte} (h : t.readByte a = v) : Fetches t a v.toNat :=
    fetchBytes_of_read t a v h
  refine ⟨fun r m hr ho => ?_, fun m n ho hn => ?_, fun v hv => ?_, ?_, ?_⟩
  · obtain ⟨t, ht, hpc, hread, -⟩ := exec_store i s r m hw ho hr
    exact ⟨t, ht, hpc, fetches hread⟩
  · obtain ⟨t, ht, hpc, rfl, -⟩ := exec_modify i s m n hw ho hn
    exact ⟨t, ht, hpc, fetches rfl⟩
  · simp only [List.mem_cons, Prod.mk.injEq, List.not_mem_nil, or_false] at hv
    rcases hv with ⟨rfl, rfl⟩ | ⟨rfl, rfl⟩
    · obtain ⟨hread, -, hpc, -⟩ := pushAccumulator_spec 3 hw
      exact ⟨pushAccumulator 3 s, rfl, hpc, fetches hread⟩
    · obtain ⟨hread, -, hpc, -⟩ := pushStatus_spec 3 hw
      exact ⟨pushStatus 3 s, rfl, hpc, fetches hread⟩
  · rintro target rfl
    obtain ⟨hhi, hlo, -, hpc, -⟩ := callSubroutine_spec (.absolute target) 6 hw
    exact ⟨callSubroutine (.absolute target) 6 s, rfl, hpc, fetches hhi, fetches hlo⟩
  · rintro rfl
    obtain ⟨hhi, hlo, hp, -⟩ := takeTrap_memory 7 hw
    exact ⟨takeTrap 7 s, rfl, takeTrap_pc 7 hw, fetches hhi, fetches hlo, fetches hp⟩

end Sys2Proof.Machine

/-! SUPPORT. The encoding (30_encoding.md R90–R102): what a format builds from operand bytes, the decoder as its inverse, the
row an opcode byte stands for, and the assembler's offset byte. -/

namespace Sys2Proof

open Machine

/-! ## A format with its operand bytes (R91, R92) -/

/-- What a cell's format builds from which operand bytes: both directions of the decoder go through this relation. -/
inductive OpcodeForm.Builds : OpcodeForm → Instr → List Byte → Prop
  | f1 (i : Instr) : Builds (.f1 i) i []
  | f2 (mk : Byte → Instr) (b : Byte) : Builds (.f2 mk) (mk b) [b]
  | f3 (mk : Word → Instr) (w : Word) : Builds (.f3 mk) (mk w) [loByte w, hiByte w]

namespace OpcodeForm.Builds

theorem length_le {form : OpcodeForm} {i : Instr} {operands : List Byte} (h : form.Builds i operands) :
    operands.length ≤ 2 := by
  cases h <;> simp

/-- A word operand is given by its two bytes. -/
theorem f3_bytes (mk : Word → Instr) (lo hi : Byte) : Builds (.f3 mk) (mk (wordOf lo hi)) [lo, hi] := by
  simpa only [loByte_wordOf, hiByte_wordOf] using f3 mk (wordOf lo hi)

/-- A format takes any operand bytes of the right number. -/
theorem refill {form : OpcodeForm} {i : Instr} {operands bytes : List Byte} (h : form.Builds i operands)
    (hl : bytes.length = operands.length) : ∃ j, form.Builds j bytes := by
  cases h with
  | f1 =>
    obtain rfl := List.length_eq_zero_iff.mp hl
    exact ⟨_, f1 _⟩
  | f2 mk =>
    obtain ⟨b, rfl⟩ := List.length_eq_one_iff.mp hl
    exact ⟨_, f2 mk b⟩
  | f3 mk =>
    obtain ⟨lo, hi, rfl⟩ := List.length_eq_two.mp hl
    exact ⟨_, f3_bytes mk lo hi⟩

/-- The table and the encoder agree (`opcodeEntry_encodes`). -/
theorem encode_eq {op : Byte} {e : OpcodeEntry} {i : Instr} {operands : List Byte} (h : e.form.Builds i operands)
    (he : opcodeEntry op = some e) : encode i = op :: operands := by
  have hcell := opcodeEntry_encodes op
  rw [he] at hcell
  obtain ⟨form, cycles, extra⟩ := e
  cases h with
  | f1 => exact hcell
  | f2 mk b => exact hcell b
  | f3 mk w => exact hcell w

end OpcodeForm.Builds

/-! ## The decoder (R90–R93, R98) -/

theorem takeOperand_eq_ok_iff (form : OpcodeForm) (bytes rest : List Byte) (i : Instr) :
    takeOperand form bytes = .ok (i, rest) ↔ ∃ operands, form.Builds i operands ∧ bytes = operands ++ rest := by
  constructor
  · intro h
    match form, bytes with
    | .f1 _, _ => cases h; exact ⟨_, .f1 _, rfl⟩
    | .f2 mk, b :: _ => cases h; exact ⟨_, .f2 mk b, rfl⟩
    | .f3 mk, lo :: hi :: _ => cases h; exact ⟨_, .f3_bytes mk lo hi, rfl⟩
  · rintro ⟨_, h, rfl⟩
    cases h with
    | f1 | f2 => rfl
    | f3 mk w => simp [takeOperand, wordOf_lo_hi]

theorem takeOperand_ne_unimplementedOpcode (form : OpcodeForm) (bytes : List Byte) (op : Byte) :
    takeOperand form bytes ≠ .error (.unimplementedOpcode op) := by
  fun_cases takeOperand form bytes <;> simp

theorem decode_cons_eq_ok_iff (op : Byte) (bytes rest : List Byte) (i : Instr) :
    decode (op :: bytes) = .ok (i, rest) ↔
      ∃ e operands, opcodeEntry op = some e ∧ e.form.Builds i operands ∧ bytes = operands ++ rest := by
  rw [decode_cons]
  cases opcodeEntry op with
  | none => simp
  | some e => simp [takeOperand_eq_ok_iff]

theorem decode_cons_eq_unimplementedOpcode_iff (op : Byte) (rest : List Byte) :
    decode (op :: rest) = .error (.unimplementedOpcode op) ↔ opcodeEntry op = none := by
  rw [decode_cons]
  cases opcodeEntry op with
  | none => simp
  | some e => simp [takeOperand_ne_unimplementedOpcode]

theorem opcodeEntry_eq_none_iff (op : Byte) : opcodeEntry op = none ↔ op ∈ undefinedOpcodes := by
  rw [← Option.isNone_iff_eq_none, opcodeEntry_isNone, decide_eq_true_iff]

/-- What a decoding consumed is the encoding of its instruction. -/
theorem encode_of_decode_cons {op : Byte} {bytes rest : List Byte} {i : Instr} (h : decode (op :: bytes) = .ok (i, rest)) :
    ∃ operands, operands.length ≤ 2 ∧ encode i = op :: operands ∧ bytes = operands ++ rest := by
  obtain ⟨e, operands, he, hb, hbytes⟩ := (decode_cons_eq_ok_iff ..).mp h
  exact ⟨operands, hb.length_le, hb.encode_eq he, hbytes⟩

/-! ## The cell of an instruction (R95) -/

/-- Every instruction stands in the table, at the first byte of its encoding, and its cell builds it from its operand. -/
theorem Instr.exists_cell (i : Instr) :
    ∃ op e, encode i = op :: i.operand.bytes ∧ opcodeEntry op = some e ∧ e.form.Builds i i.operand.bytes := by
  cases i <;> exact ⟨_, _, rfl, rfl, by constructor⟩

theorem Instr.wellFormedEncoding (i : Instr) : Laws.WellFormedEncoding.Statement i := by
  cases i <;> exact ⟨rfl, rfl, rfl⟩

/-- Settles O1: the cell of the instruction (`Instr.exists_cell`) builds it from the bytes that the encoder wrote, which is
what the decoder reads (`decode_cons_eq_ok_iff`). -/
theorem decodeOfEncode : Obligations.DecodeOfEncode := by
  intro i rest
  obtain ⟨op, e, henc, he, hb⟩ := i.exists_cell
  rw [henc]
  exact (decode_cons_eq_ok_iff ..).mpr ⟨e, _, he, hb, rfl⟩

/-- Settles O2: no bytes decode to nothing, and a first byte with what was consumed after it is the encoding
(`encode_of_decode_cons`). -/
theorem encodeOfDecode : Obligations.EncodeOfDecode := by
  intro bytes rest i h
  cases bytes with
  | nil => cases h
  | cons op bytes =>
    obtain ⟨operands, -, henc, rfl⟩ := encode_of_decode_cons h
    rw [henc, List.cons_append]

/-- Settles O3: R98's refusal is the table's empty cell, and the empty cells are the listed bytes. -/
theorem unimplementedExactlyTheListedBytes : Obligations.UnimplementedExactlyTheListedBytes := fun op rest =>
  (decode_cons_eq_unimplementedOpcode_iff op rest).trans (opcodeEntry_eq_none_iff op)

/-! ## The row of an opcode byte (R90, R96) -/

/-- The pair of mnemonic and mode that an instruction's row of the table is named by. -/
def Instr.row (i : Instr) : Mnemonic × Mode := (i.mnemonic, i.operand.mode)

/-- The instruction a format builds with operand bytes zero. -/
def OpcodeForm.zeroed : OpcodeForm → Instr
  | .f1 i => i
  | .f2 mk => mk 0x00#8
  | .f3 mk => mk 0x0000#16

/-- The row is read off the opcode's cell, whatever the operand. -/
theorem row_of_encode {i : Instr} {op : Byte} {operands : List Byte} (h : encode i = op :: operands) :
    (opcodeEntry op).map (·.form.zeroed.row) = some i.row := by
  cases i <;> (cases h; rfl)

/-- The opcode byte alone decides the row. -/
theorem row_eq_of_encode {i j : Instr} {op : Byte} {bytes₁ bytes₂ : List Byte} (hi : encode i = op :: bytes₁)
    (hj : encode j = op :: bytes₂) : i.row = j.row :=
  Option.some.inj ((row_of_encode hi).symm.trans (row_of_encode hj))

/-- Settles O5: what was consumed is an encoding (`encode_of_decode_cons`), whose first byte decides the row
(`row_eq_of_encode`) and whose number of bytes is the instruction's length. -/
theorem opcodeDecidesModeAndLength : Obligations.OpcodeDecidesModeAndLength := by
  intro op r₁ r₂ t₁ t₂ i₁ i₂ h₁ h₂
  obtain ⟨operands, hle, henc₁, rfl⟩ := encode_of_decode_cons h₁
  obtain ⟨_, -, henc₂, -⟩ := encode_of_decode_cons h₂
  obtain ⟨hmnemonic, hmode⟩ := Prod.mk.inj (row_eq_of_encode henc₁ henc₂)
  obtain ⟨-, hlen, -⟩ := i₁.wellFormedEncoding
  rw [henc₁] at hlen
  exact ⟨hmnemonic, hmode, congrArg Mode.length hmode, operands, hle, hlen.symm, rfl⟩

/-! ## The supported pairs (R96, R100) -/

/-- The map has a cell for every supported pair. -/
theorem exists_cell_of_mem_modes (m : Mnemonic) :
    ∀ md ∈ m.modes, ∃ cells ∈ opcodeMap, (m, md) ∈ cells.reduceOption.map (·.form.zeroed.row) := by
  cases m <;> decide

theorem exists_instr_of_mem_modes {m : Mnemonic} {md : Mode} (h : md ∈ m.modes) : ∃ i : Instr, i.row = (m, md) := by
  obtain ⟨_, -, hmem⟩ := exists_cell_of_mem_modes m md h
  obtain ⟨e, -, he⟩ := List.mem_map.mp hmem
  exact ⟨_, he⟩

/-- The operand that a mode makes of operand bytes (R91, R92): `Operand.bytes` read backwards. -/
def Mode.operand : Mode → List Byte → Operand
  | .accumulator, _ => .accumulator
  | .relative, [rel] => .relative rel
  | .immediate, [imm] => .memory (.immediate imm)
  | .zeroPage, [zp] => .memory (.zeroPage zp)
  | .zeroPageX, [zp] => .memory (.zeroPageX zp)
  | .zeroPageY, [zp] => .memory (.zeroPageY zp)
  | .indexedIndirect, [zp] => .memory (.indexedIndirect zp)
  | .indirectIndexed, [zp] => .memory (.indirectIndexed zp)
  | .absolute, [lo, hi] => .memory (.absolute (wordOf lo hi))
  | .absoluteX, [lo, hi] => .memory (.absoluteX (wordOf lo hi))
  | .absoluteY, [lo, hi] => .memory (.absoluteY (wordOf lo hi))
  | .indirect, [lo, hi] => .memory (.indirect (wordOf lo hi))
  | _, _ => .implied

theorem Mode.operand_bytes (o : Operand) : o.mode.operand o.bytes = o := by
  cases o with
  | accumulator | implied | relative => rfl
  | memory m => cases m <;> simp [Operand.mode, MemOperand.mode, Operand.bytes, Mode.operand, wordOf_lo_hi]

/-- An operand is its mode with its bytes. -/
theorem Operand.eq_of_mode_of_bytes {o o' : Operand} (hm : o.mode = o'.mode) (hb : o.bytes = o'.bytes) : o = o' := by
  rw [← Mode.operand_bytes o, hm, hb, Mode.operand_bytes]

theorem Operand.bytes_length (o : Operand) : o.bytes.length + 1 = o.mode.length := by
  cases o with
  | accumulator | implied | relative => rfl
  | memory m => cases m <;> rfl

/-- A row takes every operand of its mode. -/
theorem Instr.exists_with_operand (i : Instr) {o : Operand} (hm : o.mode = i.operand.mode) :
    ∃ j : Instr, j.mnemonic = i.mnemonic ∧ j.operand = o := by
  obtain ⟨op, e, henc, he, hb⟩ := i.exists_cell
  have hlen : o.bytes.length = i.operand.bytes.length := by
    have := o.bytes_length
    rw [hm, ← i.operand.bytes_length] at this
    exact Nat.succ.inj this
  obtain ⟨j, hj⟩ := hb.refill hlen
  have hjenc : encode j = op :: o.bytes := hj.encode_eq he
  obtain ⟨hmnemonic, hmode⟩ := Prod.mk.inj (row_eq_of_encode hjenc henc)
  obtain ⟨-, -, hbytes⟩ := j.wellFormedEncoding
  rw [hjenc] at hbytes
  exact ⟨j, hmnemonic, Operand.eq_of_mode_of_bytes (hmode.trans hm.symm) hbytes.symm⟩

/-- Settles O6: a supported pair has a cell (`exists_instr_of_mem_modes`), whose row takes every operand of the mode
(`Instr.exists_with_operand`); and every instruction is well formed. -/
theorem supportedPairsAreTheInstructions : Obligations.SupportedPairsAreTheInstructions := by
  intro r
  constructor
  · intro h
    obtain ⟨i, hi⟩ := exists_instr_of_mem_modes (List.contains_iff_mem.mp h)
    obtain ⟨hmnemonic, hmode⟩ := Prod.mk.inj hi
    obtain ⟨j, hj, ho⟩ := i.exists_with_operand hmode.symm
    exact ⟨j, by rw [Instr.raw, hj, hmnemonic, ho]⟩
  · rintro ⟨i, rfl⟩
    exact i.wellFormedEncoding.1

/-! ## The assembler's offset byte (R102) -/

theorem sext16_toInt (v : Byte) : (sext16 v).toInt = v.toInt := BitVec.toInt_signExtend_of_le (by decide)

/-- The signed value of a byte is the number from −128 to 127 that is the byte modulo 256. -/
theorem byte_toInt_eq_iff (v : Byte) (d : Int) : v.toInt = d ↔ -128 ≤ d ∧ d ≤ 127 ∧ (v.toNat : Int) = d % 256 := by
  have := v.isLt
  rw [BitVec.toInt_eq_toNat_cond]
  omega

theorem loByte_sext16 (v : Byte) : loByte (sext16 v) = v := by
  have h := sext16_toInt v
  have := v.isLt
  simp only [BitVec.toInt_eq_toNat_cond] at h
  apply BitVec.eq_of_toNat_eq
  rw [loByte_toNat]
  omega

/-- The range of R102: the distances that their low byte gives back. -/
theorem sext16_loByte_iff (d : Word) : sext16 (loByte d) = d ↔ -128 ≤ d.toInt ∧ d.toInt ≤ 127 := by
  rw [← BitVec.toInt_inj, sext16_toInt, byte_toInt_eq_iff, loByte_toNat]
  have := d.isLt
  rw [BitVec.toInt_eq_toNat_cond]
  omega

/-- The assembler inverts `branchTarget`. -/
theorem relativeOffset_eq_some_iff (pc0 target : Word) (rel : Byte) :
    relativeOffset pc0 target = some rel ↔ branchTarget pc0 rel = target := by
  rw [branchTarget, add_comm, ← eq_sub_iff_add_eq, relativeOffset]
  simp only [← sext16_loByte_iff]
  split
  next hrange =>
    rw [Option.some.injEq]
    exact ⟨fun e => e ▸ hrange, fun e => e ▸ loByte_sext16 rel⟩
  next hrange =>
    refine iff_of_false (by simp) fun e => hrange ?_
    rw [← e, loByte_sext16]

/-- The target in numbers: PC0 + 2 and the signed offset, on the 16-bit circle. -/
theorem branchTarget_eq_iff (pc0 target : Word) (rel : Byte) :
    branchTarget pc0 rel = target ↔ (target.toNat : Int) = ((pc0.toNat : Int) + 2 + rel.toInt) % 65536 := by
  have hp := pc0.isLt
  have ht := target.isLt
  have hs := sext16_toInt rel
  rw [← BitVec.toNat_inj, branchTarget, BitVec.toNat_add, BitVec.toNat_add]
  rw [BitVec.toInt_eq_toNat_cond] at hs
  simp only [BitVec.toNat_ofNat]
  omega

/-- Settles O7: the byte answered is the one whose branch goes to the target (`relativeOffset_eq_some_iff`), so its signed value
is the distance (`branchTarget_eq_iff`, `byte_toInt_eq_iff`), and a distance in the range is some byte's. -/
theorem relativeOffsetReachesTarget : Obligations.RelativeOffsetReachesTarget := by
  intro pc0 target Reaches
  have some_iff (rel : Byte) : relativeOffset pc0 target = some rel ↔ ∃ d, Reaches d ∧ (rel.toNat : Int) = d % 256 := by
    rw [relativeOffset_eq_some_iff, branchTarget_eq_iff]
    constructor
    · intro ht
      obtain ⟨hlo, hhi, hrel⟩ := (byte_toInt_eq_iff rel _).mp rfl
      exact ⟨_, ⟨hlo, hhi, ht⟩, hrel⟩
    · rintro ⟨d, ⟨hlo, hhi, ht⟩, hrel⟩
      rwa [(byte_toInt_eq_iff rel d).mpr ⟨hlo, hhi, hrel⟩]
  have none_iff : relativeOffset pc0 target = none ↔ ¬∃ d, Reaches d := by
    rw [Option.eq_none_iff_forall_ne_some, not_exists]
    constructor
    · intro h d hd
      refine h (.ofInt 8 d) ((some_iff _).mpr ⟨d, hd, ?_⟩)
      rw [BitVec.toNat_ofInt]
      omega
    · intro h rel hrel
      obtain ⟨d, hd, -⟩ := (some_iff rel).mp hrel
      exact h d hd
  refine ⟨some_iff, none_iff, relativeOffset_eq_some_iff pc0 target, fun i rel h => ?_⟩
  rw [Instr.text, h, Operand.text, String.append_assoc]

/-! ## The written examples (R101) -/

/-- Settles O4: the decoder and the assembler's text run on the thirteen rows. -/
theorem specWordsDecode : Obligations.SpecWordsDecode := by
  refine ⟨⟨rfl, rfl, rfl, rfl, rfl, rfl, rfl, rfl, rfl, rfl, rfl, rfl, rfl⟩, ?_⟩
  decide
end Sys2Proof

/-! SUPPORT. The step cycle's dispatch (40_dispatch.md R120–R129; 70_reset_and_hazards.md R381–R383): which instruction a step
runs, what it costs by its mark in the table, where it leaves PC, and that it uses its bytes as they were. -/

namespace Sys2Proof.Machine

open Sys2Proof

/-! ## The instruction that a step runs (R120–R125) -/

theorem step_of_decode {s : State} {i : Instr} {rest : List Byte} (hr : s.runState = .ready)
    (hd : decode (fetchBytes s) = .ok (i, rest)) : step s = exec i (noteFetch s) := by
  simp only [step, hr, runFetched, hd]

/-- Settles O8: the bytes are those of `fetchBytes`, and the state is that of `noteFetch` (`step_of_decode`). -/
theorem stepRunsTheDecodedInstruction : Obligations.StepRunsTheDecodedInstruction :=
  fun _ _ _ hr hd => step_of_decode hr hd

/-! ## The marks of the table (R95, R127, R250) -/

/-- The reads that take the page-crossing cycle. -/
abbrev pageReads : List Mnemonic := [.adc, .and, .cmp, .eor, .lda, .ldx, .ldy, .ora, .sbc]

/-- The modes that index a 16-bit base. -/
abbrev pageModes : List Mode := [.absoluteX, .absoluteY, .indirectIndexed]

/-- The mark of a row: `b` for the branches, `p` for the reads in the modes that can cross a page. -/
def rowMark (mn : Mnemonic) (md : Mode) : ExtraCycles :=
  if branchCondition mn ≠ none then .branch else if mn ∈ pageReads ∧ md ∈ pageModes then .page else .none

/-- The table's mark of every instruction is that of its row. -/
theorem extraCycles_eq_rowMark (i : Instr) : i.extraCycles = rowMark i.mnemonic i.operand.mode := by
  cases i <;> (dsimp only [Instr.extraCycles, Instr.opcode, encode, List.headD_cons]; rfl)

theorem branchCondition_of_pageReads : ∀ mn ∈ pageReads, branchCondition mn = none := by decide

theorem extraCycles_eq_branch_iff (i : Instr) : i.extraCycles = .branch ↔ branchCondition i.mnemonic ≠ none := by
  rw [extraCycles_eq_rowMark, rowMark]
  split_ifs <;> simp_all

theorem extraCycles_eq_page_iff (i : Instr) :
    i.extraCycles = .page ↔ i.mnemonic ∈ pageReads ∧ i.operand.mode ∈ pageModes := by
  rw [extraCycles_eq_rowMark, rowMark]
  split_ifs with hb hp
  · exact iff_of_false nofun fun h => hb (branchCondition_of_pageReads _ h.1)
  · exact iff_of_true rfl hp
  · exact iff_of_false nofun hp

/-- Settles O13: the mark is that of the row (`extraCycles_eq_page_iff`). -/
theorem pagePenaltyOpcodes : Obligations.PagePenaltyOpcodes := extraCycles_eq_page_iff

/-! ## What an instruction costs (R126, R127, R250, R383) -/

theorem two_le_baseCycles (i : Instr) : 2 ≤ i.baseCycles := by
  cases i <;> (dsimp only [Instr.baseCycles, Instr.opcode, encode, List.headD_cons]; decide)

theorem baseCycles_le_seven (i : Instr) : i.baseCycles ≤ 7 :=
  (baseCycles_le_slowestRow i).trans (slowestRow_le_seven _)

/-- Whether the target of a taken branch is on another page, in numbers. -/
theorem branchPage_iff (pc : Word) (rel : Byte) :
    (hiByte (branchTarget pc rel) != hiByte (pc + 2#16)) = true ↔
      (branchTarget pc rel).toNat / 256 ≠ (pc.toNat + 2) % 65536 / 256 := by
  rw [bne_iff_ne, ne_eq, ← BitVec.toNat_inj, hiByte_toNat, hiByte_toNat, BitVec.toNat_add]
  rfl

/-- What the instruction `i` costs from `s` to `t`, by its mark. -/
inductive CostFollows (i : Instr) (s t : State) : Prop
  | fixed : i.extraCycles ≠ .page → branchCondition i.mnemonic = none → t.cyclesLast.toNat = i.baseCycles →
      CostFollows i s t
  | read {m} : i.operand = .memory m → branchCondition i.mnemonic = none → (i.extraCycles = .none → pageExtra m s = 0) →
      t.cyclesLast.toNat = i.baseCycles + pageExtra m s → CostFollows i s t
  | branch {f wanted rel} : branchCondition i.mnemonic = some (f, wanted) → i.operand = .relative rel →
      t.cyclesLast.toNat = i.baseCycles + (if s.flag f = wanted then
        1 + if s.cfg.strictTiming && hiByte (branchTarget s.pc rel) != hiByte (s.pc + 2#16) then 1 else 0 else 0) →
      CostFollows i s t

/-- Neither a branch nor a read that can have the mark `p`. -/
abbrev FixedCost (mn : Mnemonic) : Prop := branchCondition mn = none ∧ mn ∉ pageReads

/-- The mnemonics whose operation adds `pageExtra`: the marked reads, and CPX and CPY, which have no mode that crosses a
page. -/
abbrev indexingReads : List Mnemonic := .cpx :: .cpy :: pageReads

/-- A cost byte holds a small number as it is. -/
theorem cost_toNat {b : Byte} {n : Nat} (h : b = BitVec.ofNat 8 n) (hn : n < 256) : b.toNat = n := by
  rw [h, BitVec.toNat_ofNat, Nat.mod_eq_of_lt hn]

theorem CostFollows.of_fixed {i : Instr} {s t : State} {base : Nat} (hb : i.baseCycles = base)
    (hm : FixedCost i.mnemonic) (h : t.cyclesLast = BitVec.ofNat 8 base) : CostFollows i s t := by
  have := baseCycles_le_seven i
  exact .fixed (fun hp => hm.2 ((extraCycles_eq_page_iff i).mp hp).1) hm.1 (hb ▸ cost_toNat h (by omega))

theorem pageExtra_eq_zero_of_mode {m : MemOperand} (s : State) (h : m.mode ∉ pageModes) : pageExtra m s = 0 := by
  cases m <;> simp [MemOperand.mode, pageExtra, pageCrossed] at h ⊢

/-- An instruction that adds `pageExtra` and has no mark has no mode that crosses a page. -/
theorem pageExtra_eq_zero_of_unmarked {i : Instr} {m : MemOperand} (s : State) (ho : i.operand = .memory m)
    (hm : i.mnemonic ∈ indexingReads) (hx : i.extraCycles = .none) : pageExtra m s = 0 := by
  have hmode : i.operand.mode ∈ i.mnemonic.modes := List.contains_iff_mem.mp i.wellFormedEncoding.1
  rw [extraCycles_eq_rowMark] at hx
  have hn := (by decide : ∀ mn ∈ indexingReads, ∀ md ∈ mn.modes, rowMark mn md = .none → md ∉ pageModes)
    _ hm _ hmode hx
  rw [ho] at hn
  exact pageExtra_eq_zero_of_mode s hn

theorem CostFollows.of_read {i : Instr} {s t : State} {m : MemOperand} {base : Nat} (ho : i.operand = .memory m)
    (hb : i.baseCycles = base) (hm : i.mnemonic ∈ indexingReads)
    (h : t.cyclesLast = BitVec.ofNat 8 (base + pageExtra m s)) : CostFollows i s t := by
  have := baseCycles_le_seven i
  have := pageExtra_le_one m s
  exact .read ho ((by decide : ∀ mn ∈ indexingReads, branchCondition mn = none) _ hm)
    (pageExtra_eq_zero_of_unmarked s ho hm) (hb ▸ cost_toNat h (by omega))

/-- Every effect costs what the mark says. -/
theorem effect_cost {i : Instr} {f : State → State} (he : Effect i f) (s : State) : CostFollows i s (f s) := by
  cases he with
  | load ho hb h =>
    exact .of_read ho hb ((by decide : ∀ p ∈ _, p.1 ∈ indexingReads) _ h) (load_spec _ _ _ s).2.2.2.1
  | adc ho hb h => exact .of_read ho hb (h ▸ by decide) (addWithCarry_spec _ _ s).2.2.2.2.2.1
  | sbc ho hb h => exact .of_read ho hb (h ▸ by decide) (subtractWithBorrow_spec _ _ s).2.2.2.2.2.1
  | and ho hb h | ora ho hb h | eor ho hb h => exact .of_read ho hb (h ▸ by decide) (logic_spec _ _ _ s).2.2.2.1
  | compare ho hb h =>
    exact .of_read ho hb ((by decide : ∀ p ∈ _, p.1 ∈ indexingReads) _ h) (compareRegister_spec _ _ _ s).2.2.2.1
  | branch ho hb h =>
    have := baseCycles_le_seven i
    refine .branch h ho (cost_toNat ((branch_spec _ _ _ _ s).2.1.trans (congrArg _ ?_)) ?_) <;>
      split_ifs <;> omega
  | store _ hb h | incReg _ hb h | decReg _ hb h =>
    exact .of_fixed hb ((by decide : ∀ p ∈ _, FixedCost p.1) _ h) rfl
  | flag _ hb h => exact .of_fixed hb ((by decide : ∀ p ∈ _, FixedCost p.1) _ h) rfl
  | transfer _ hb h => exact .of_fixed hb ((by decide : ∀ p ∈ _, FixedCost p.1) _ h) rfl
  | _ _ hb h => exact .of_fixed hb (h ▸ by decide) rfl

/-- Settles O12: every effect costs what its mark says (`effect_cost`), and the branches are the opcodes marked `b`
(`extraCycles_eq_branch_iff`). -/
theorem cycleCostFollowsTheTable : Obligations.CycleCostFollowsTheTable := by
  intro i s t h
  obtain ⟨f, rfl, he⟩ := effect_of_exec h
  have hbranch := extraCycles_eq_branch_iff i
  refine ⟨⟨two_le_baseCycles i, baseCycles_le_seven i⟩, ?_⟩
  cases effect_cost he s with
  | fixed hp hb hc =>
    exact ⟨fun _ => hc, fun _ h => absurd h hp, hbranch, fun _ _ _ h => absurd (hb.symm.trans h) nofun⟩
  | read ho hb hz hc =>
    refine ⟨fun h => by rw [hc, hz h]; rfl, fun m _ hm => ?_, hbranch, fun _ _ _ h => absurd (hb.symm.trans h) nofun⟩
    obtain rfl : _ = m := Operand.memory.inj (ho.symm.trans hm)
    rw [hc, pageExtra]
    simp only [Bool.and_eq_true]
  | branch hb ho hc =>
    have hx : i.extraCycles = .branch := hbranch.mpr (hb ▸ nofun)
    refine ⟨fun h => absurd (hx.symm.trans h) nofun, fun _ h => absurd (hx.symm.trans h) nofun, hbranch,
      fun f wanted rel h hr => ?_⟩
    obtain ⟨rfl, rfl⟩ := Prod.mk.inj (Option.some.inj (hb.symm.trans h))
    obtain rfl := Operand.relative.inj (ho.symm.trans hr)
    rw [hc]
    simp only [Bool.and_eq_true, branchPage_iff]

/-! ## Where an instruction leaves PC (R129) -/

/-- The five mnemonics beside the branches that do not go on past their own bytes. -/
abbrev jumpMnemonics : List Mnemonic := [.jmp, .jsr, .rts, .rti, .brk]

/-- A mnemonic that goes on past its own bytes. -/
abbrev GoesOn (mn : Mnemonic) : Prop := branchCondition mn = none ∧ mn ∉ jumpMnemonics

/-- Where the instruction `i` at `s` leaves PC in `t`: the rows of R129. -/
inductive PcFollows (i : Instr) (s t : State) : Prop
  | next : branchCondition i.mnemonic = none → i.mnemonic ∉ jumpMnemonics → t.pc = s.pc + BitVec.ofNat 16 i.length →
      PcFollows i s t
  | branch {f wanted rel} : branchCondition i.mnemonic = some (f, wanted) → i.operand = .relative rel →
      t.pc = (if s.flag f = wanted then branchTarget s.pc rel else s.pc + 2#16) → PcFollows i s t
  | jump {m} : i.mnemonic ∈ [Mnemonic.jmp, .jsr] → i.operand = .memory m → t.pc = effectiveAddress m s → PcFollows i s t
  | rts : i.mnemonic = .rts →
      t.pc = wordOf (s.readByte (stackAddress (s.s + 1#8))) (s.readByte (stackAddress (s.s + 2#8))) + 1#16 →
      PcFollows i s t
  | rti : i.mnemonic = .rti →
      t.pc = wordOf (s.readByte (stackAddress (s.s + 2#8))) (s.readByte (stackAddress (s.s + 3#8))) → PcFollows i s t
  | brk : i.mnemonic = .brk → t.pc = s.readWord Config.brkVector → PcFollows i s t

theorem PcFollows.of_operand {i : Instr} {s t : State} {o : Operand} (ho : i.operand = o)
    (hm : GoesOn i.mnemonic) (h : t.pc = s.pc + BitVec.ofNat 16 o.mode.length) : PcFollows i s t :=
  .next hm.1 hm.2 (by rwa [Instr.length, ho])

/-! The rows are disjoint by mnemonic, so each gives back its PC. -/

section

variable {i : Instr} {s t : State} (h : PcFollows i s t)
include h

theorem PcFollows.pc_of_next (hb : branchCondition i.mnemonic = none) (hm : i.mnemonic ∉ jumpMnemonics) :
    t.pc = s.pc + BitVec.ofNat 16 i.length := by
  cases h <;> simp_all

theorem PcFollows.pc_of_branch {f : Flag} {wanted : Bool} {rel : Byte} (hb : branchCondition i.mnemonic = some (f, wanted))
    (ho : i.operand = .relative rel) : t.pc = if s.flag f = wanted then branchTarget s.pc rel else s.pc + 2#16 := by
  cases h <;> simp_all [branchCondition]

theorem PcFollows.pc_of_jump {m : MemOperand} (hm : i.mnemonic ∈ [Mnemonic.jmp, .jsr]) (ho : i.operand = .memory m) :
    t.pc = effectiveAddress m s := by
  cases h <;> simp_all

theorem PcFollows.pc_of_rts (hm : i.mnemonic = .rts) :
    t.pc = wordOf (s.readByte (stackAddress (s.s + 1#8))) (s.readByte (stackAddress (s.s + 2#8))) + 1#16 := by
  cases h <;> simp_all [branchCondition]

theorem PcFollows.pc_of_rti (hm : i.mnemonic = .rti) :
    t.pc = wordOf (s.readByte (stackAddress (s.s + 2#8))) (s.readByte (stackAddress (s.s + 3#8))) := by
  cases h <;> simp_all [branchCondition]

theorem PcFollows.pc_of_brk (hm : i.mnemonic = .brk) : t.pc = s.readWord Config.brkVector := by
  cases h <;> simp_all [branchCondition]

end

/-- Every effect leaves PC where R129 says. -/
theorem effect_pc {i : Instr} {f : State → State} (he : Effect i f) {s : State} (hw : s.mem.wf = true) :
    PcFollows i s (f s) := by
  cases he with
  | load ho _ h => exact .of_operand ho ((by decide : ∀ p ∈ _, GoesOn p.1) _ h) (load_spec _ _ _ s).2.2.1
  | store ho _ h | compare ho _ h => exact .of_operand ho ((by decide : ∀ p ∈ _, GoesOn p.1) _ h) rfl
  | flag ho _ h => exact .of_operand ho ((by decide : ∀ p ∈ _, GoesOn p.1) _ h) rfl
  | adc ho _ h => exact .of_operand ho (h ▸ by decide) (addWithCarry_spec _ _ s).2.2.2.2.1
  | sbc ho _ h => exact .of_operand ho (h ▸ by decide) (subtractWithBorrow_spec _ _ s).2.2.2.2.1
  | incReg ho _ h | decReg ho _ h =>
    exact .of_operand ho ((by decide : ∀ p ∈ _, GoesOn p.1) _ h) (modifyRegister_spec _ _ _ s).2.2.1
  | transfer ho _ h =>
    exact .of_operand ho ((by decide : ∀ p ∈ _, GoesOn p.1) _ h) (transfer_spec _ _ _ s).2.2.1
  | branch ho _ h => exact .branch h ho (branch_spec _ _ _ _ s).1
  | jump ho _ h => exact .jump (h ▸ List.mem_cons_self) ho rfl
  | call ho _ h => exact .jump (h ▸ List.mem_cons_of_mem _ List.mem_cons_self) ho rfl
  | rts _ _ h => exact .rts h (returnFromSubroutine_spec _ s).1
  | rti _ _ h => exact .rti h (returnFromTrap_fields _ s).2.2.2.2.2.1
  | brk _ _ h => exact .brk h (takeTrap_pc _ hw)
  | _ ho _ h => exact .of_operand ho (h ▸ by decide) rfl

theorem modeLength_mem (md : Mode) : md.length ∈ [1, 2, 3] := by cases md <;> decide

theorem State.readWord_toNat (s : State) (a : Word) :
    (s.readWord a).toNat = (s.readByte a).toNat + 256 * (s.readByte (a + 1#16)).toNat := wordOf_toNat _ _

/-- Settles O14: every effect leaves PC where its row of R129 says (`effect_pc`); what remains is the numbers of the row. -/
theorem pcAfterEveryInstruction : Obligations.PcAfterEveryInstruction := by
  intro i s hw pulled
  obtain ⟨f, hf, he⟩ := exec_effect i
  have hpc := effect_pc he hw
  refine ⟨f s, hf s, fun hb hm => ⟨?_, modeLength_mem i.operand.mode⟩,
    fun f wanted rel hb ho => ⟨fun hflag => ?_, fun hflag => ?_⟩, fun m hm ho => hpc.pc_of_jump hm ho,
    fun hm => ?_, fun hm => ?_, fun hm => ?_⟩
  · rw [hpc.pc_of_next hb hm, BitVec.toNat_add, BitVec.toNat_ofNat, Nat.add_mod_mod]
  · rw [hpc.pc_of_branch hb ho, if_neg hflag, BitVec.toNat_add]
    rfl
  · rw [hpc.pc_of_branch hb ho, if_pos hflag]
    exact (branchTarget_eq_iff _ _ _).mp rfl
  · rw [hpc.pc_of_rts hm, BitVec.toNat_add, wordOf_toNat]
    rfl
  · rw [hpc.pc_of_rti hm, wordOf_toNat]
    rfl
  · rw [hpc.pc_of_brk hm]
    exact s.readWord_toNat _

/-! ## An instruction uses its bytes as they were (R124, R381) -/

@[simp] theorem noteFetch_effectiveAddress (m : MemOperand) (s : State) :
    effectiveAddress m (noteFetch s) = effectiveAddress m s := by
  cases m <;> rfl

/-- One byte stored and every other kept, as one equation. -/
theorem MemKept.readByte_eq_ite {s t : State} {a : Word} {v : Byte} (h : MemKept [a] s t) (hv : t.readByte a = v)
    (b : Word) : t.readByte b = if b = a then v else s.readByte b := by
  split
  · next e => rw [e, hv]
  · next e => exact h b (by simpa using e)

/-- What the decoded instruction completes with after the fetch, the step answers. -/
theorem step_completes {s : State} {i : Instr} {rest : List Byte} {Q : State → Prop} (hr : s.runState = .ready)
    (hd : decode (fetchBytes s) = .ok (i, rest)) (h : Completes i (noteFetch s) Q) : ∃ t, step s = .next t ∧ Q t := by
  rw [step_of_decode hr hd]
  exact h

theorem decode_fetchBytes_of_opcode {s : State} {op : Byte} (hop : s.readByte s.pc = op) :
    decode (fetchBytes s) = decode [op, s.readByte (s.pc + 1#16), s.readByte (s.pc + 2#16)] := by
  rw [fetchBytes, hop]

/-- Settles O24: the step is `exec` of the instruction that the old bytes decode to (`step_of_decode`), whose operations read
before they write (`exec_store`, `exec_modify` and the specs of the pushing operations). -/
theorem instructionsUseTheirOldBytes : Obligations.InstructionsUseTheirOldBytes := by
  intro s hr hw lo hi Stores
  have stores {t : State} {a : Word} {v : Byte} (hv : t.readByte a = v) (h : MemKept [a] (noteFetch s) t) :
      Stores t a v.toNat := fun b => by
    rw [h.readByte_eq_ite hv b, apply_ite BitVec.toNat, State.noteFetch_readByte]
  refine ⟨fun hop => ?_, fun hop => ?_, fun i rest m hd ho => ⟨fun r hm => ?_, fun n hm => ?_⟩,
    fun v hv => ?_, fun hop => ?_⟩
  · refine step_completes (i := .jsrAbs (wordOf lo hi)) hr (decode_fetchBytes_of_opcode hop) ⟨_, rfl, ?_⟩
    exact wordOf_toNat lo hi
  · obtain ⟨t, ht, -, hv, hk⟩ :=
      exec_store (.staAbs (wordOf lo hi)) (noteFetch s) .a (.absolute (wordOf lo hi)) hw rfl List.mem_cons_self
    refine step_completes hr (decode_fetchBytes_of_opcode hop) ⟨t, ht, fun a => ?_⟩
    rw [hk.readByte_eq_ite hv a]
    simp only [← wordOf_toNat, BitVec.toNat_inj]
    rfl
  · obtain ⟨t, ht, hpc, hv, hk⟩ := exec_store i (noteFetch s) r m hw ho hm
    rw [noteFetch_effectiveAddress] at hv hk
    exact step_completes hr hd ⟨t, ht, hpc, State.noteFetch_reg' s r ▸ stores hv hk⟩
  · obtain ⟨t, ht, hpc, rfl, hk⟩ := exec_modify i (noteFetch s) m n hw ho (by simpa using hm)
    rw [noteFetch_effectiveAddress] at hk ⊢
    exact step_completes hr hd ⟨t, ht, hpc, stores rfl hk⟩
  · simp only [List.mem_cons, Prod.mk.injEq, List.not_mem_nil, or_false] at hv
    rcases hv with ⟨hop, rfl⟩ | ⟨hop, rfl⟩
    · obtain ⟨hread, -, hpc, -, -, -, hframe⟩ := pushAccumulator_spec (s := noteFetch s) 3 hw
      exact step_completes (i := .pha) hr (decode_fetchBytes_of_opcode hop) ⟨_, rfl, hpc, stores hread hframe.memory⟩
    · obtain ⟨hread, -, hpc, -, -, -, hframe⟩ := pushStatus_spec (s := noteFetch s) 3 hw
      exact step_completes (i := .php) hr (decode_fetchBytes_of_opcode hop) ⟨_, rfl, hpc, stores hread hframe.memory⟩
  · obtain ⟨-, -, -, hs, -⟩ := takeTrap_fields 7 (noteFetch s)
    refine step_completes (i := .brk) hr (decode_fetchBytes_of_opcode hop) ⟨_, rfl, ?_, hs⟩
    rw [takeTrap_pc (s := noteFetch s) 7 hw]
    exact s.readWord_toNat 0xFFFE#16

end Sys2Proof.Machine

/-! SUPPORT. The address arithmetic of the addressing modes (41_addressing.md R140–R156): indexing as numbers, the zero-page
word, the page comparison, and where an immediate operand lies. -/

namespace Sys2Proof.Machine

open Sys2Proof

/-! ## Indexing and pointers as numbers (R146–R152) -/

/-- An index added to a 16-bit base wraps at 65536 (R149). -/
theorem add_zext16_toNat (w : Word) (v : Byte) : (w + zext16 v).toNat = (w.toNat + v.toNat) % 65536 := by
  rw [BitVec.toNat_add, zext16_toNat]

/-- A sum of bytes taken as an address stays in page 0 (R65, R147). -/
theorem zext16_add_toNat (v d : Byte) : (zext16 (v + d)).toNat = (v.toNat + d.toNat) % 256 := by
  rw [zext16_toNat, BitVec.toNat_add]

/-- The two bytes of a word in page 0: the second at the zero-page successor (R65). -/
theorem State.readWordZp_toNat (s : State) (v : Byte) :
    (s.readWordZp v).toNat =
      (s.mem.read v.toNat).toNat + 256 * (s.mem.read ((v.toNat + 1) % 256)).toNat := by
  rw [State.readWordZp, wordOf_toNat, State.readByte, State.readByte, zext16_toNat, zext16_add_toNat]
  rfl

/-- Settles O25: an immediate operand is the byte after the opcode, and an index is added modulo 256 in page 0
(`zext16_add_toNat`) and modulo 65536 to a word (`add_zext16_toNat`). -/
theorem directEffectiveAddresses : Obligations.DirectEffectiveAddresses := fun s b w =>
  ⟨⟨rfl, BitVec.toNat_add s.pc 1#16⟩, ⟨rfl, zext16_toNat b⟩, ⟨rfl, zext16_add_toNat b s.x⟩,
    ⟨rfl, zext16_add_toNat b s.y⟩, ⟨rfl, rfl⟩, ⟨rfl, add_zext16_toNat w s.x⟩, ⟨rfl, add_zext16_toNat w s.y⟩⟩

/-- Settles O26: the pointer's word is read at the 16-bit successor (`State.readWord_toNat`) or at the zero-page successor
(`State.readWordZp_toNat`), from the zero-page byte with X already added or before Y is added. -/
theorem pointerEffectiveAddresses : Obligations.PointerEffectiveAddresses := by
  intro s zp ptr byteAt Is
  refine ⟨⟨rfl, ?indirect⟩, ⟨rfl, ?indexedIndirect⟩, ⟨rfl, ?indirectIndexed⟩⟩
  case indirect =>
    rw [effectiveAddress, State.readWord_toNat, State.readByte, State.readByte, BitVec.toNat_add]
    rfl
  case indexedIndirect =>
    rw [effectiveAddress, State.readWordZp_toNat, BitVec.toNat_add, Nat.mod_add_mod]
  case indirectIndexed =>
    rw [effectiveAddress, add_zext16_toNat, State.readWordZp_toNat]

/-! ## Page crossings (R154) -/

/-- Indexing a 16-bit base crosses a page when the sum's high byte is not the base's. -/
theorem hiByte_bne_add_zext16_iff (base : Word) (v : Byte) :
    (hiByte base != hiByte (base + zext16 v)) = true ↔
      base.toNat / 256 ≠ (base.toNat + v.toNat) % 65536 / 256 := by
  rw [bne_iff_ne, ne_eq, ← BitVec.toNat_inj, hiByte_toNat, hiByte_toNat, add_zext16_toNat]

/-- Settles O28: each of the three modes indexes a 16-bit base, the operand word or the zero-page word
(`hiByte_bne_add_zext16_iff`). -/
theorem pageCrossingComparesHighBytes : Obligations.PageCrossingComparesHighBytes := fun s zp w =>
  ⟨hiByte_bne_add_zext16_iff w s.x, hiByte_bne_add_zext16_iff w s.y, hiByte_bne_add_zext16_iff (s.readWordZp zp) s.y⟩

/-! ## The operand byte (R141, R145, R155) -/

/-- Every mode but Immediate reads its operand byte at the effective address; an immediate operand is there when it is the
byte after the opcode. -/
theorem operandByte_eq_readByte {m : MemOperand} {s : State}
    (h : ∀ imm, m = .immediate imm → s.readByte (s.pc + 1#16) = imm) :
    operandByte m s = s.readByte (effectiveAddress m s) := by
  cases m with
  | immediate imm => exact (h imm rfl).symm
  | _ => rfl

/-- What a decoding consumed after the opcode are the operand's bytes. -/
theorem operand_bytes_of_decode_cons {op : Byte} {bytes rest : List Byte} {i : Instr}
    (h : decode (op :: bytes) = .ok (i, rest)) : bytes = i.operand.bytes ++ rest := by
  obtain ⟨operands, -, henc, hbytes⟩ := encode_of_decode_cons h
  obtain ⟨_, _, hcell, -⟩ := i.exists_cell
  rw [hbytes, (List.cons.inj (henc.symm.trans hcell)).2]

/-- Settles O27: the one mode that does not read memory is Immediate (`operandByte_eq_readByte`), and there the decoder took
the operand from the byte after the opcode (`operand_bytes_of_decode_cons`), which is the effective address. -/
theorem operandIsTheByteAtTheEffectiveAddress : Obligations.OperandIsTheByteAtTheEffectiveAddress := by
  intro s i m rest hd ho
  refine operandByte_eq_readByte fun imm hm => ?_
  have hbytes := operand_bytes_of_decode_cons hd
  rw [ho, hm] at hbytes
  exact (List.cons.inj hbytes).1

end Sys2Proof.Machine

/-! SUPPORT. The load and store instructions (42_load_store.md R170–R175), from two facts about every instruction: the row of
its rule that it follows, and the shared operation that its mnemonic runs on a memory operand. -/

namespace Sys2Proof.Machine

open Sys2Proof

/-! ## The row of its rule that an instruction follows -/

/-- The opcode, base cycles and mark that the opcode map (R95) gives an instruction are a row of its own rule's table. -/
theorem hasRow (i : Instr) : HasRow i i.opcode i.baseCycles i.extraCycles := by
  refine ⟨?row, ?bytes⟩
  case row =>
    cases i <;>
      (dsimp only [Instr.operand, Operand.mode, MemOperand.mode, Instr.baseCycles, Instr.extraCycles, Instr.opcode, encode,
        List.headD_cons, Instr.mnemonic]; decide)
  case bytes =>
    obtain ⟨op, _, henc, -⟩ := i.exists_cell
    rw [Instr.opcode, henc, List.headD_cons]

/-- Every instruction follows the row that it has: its cost is the one of its mark (`cycleCostFollowsTheTable`). -/
theorem followsRow_of_exec {i : Instr} {s t : State} (h : exec i s = .next t) : FollowsRow i s t :=
  have ⟨_, hnone, hpage, _⟩ := cycleCostFollowsTheTable i s t h
  ⟨i.opcode, i.baseCycles, i.extraCycles, hasRow i, hnone, hpage⟩

/-! ## The operation that an instruction runs on its memory operand -/

/-- The shared operation of a mnemonic in its memory modes, as a function of the operand, the base cycles and the state. -/
def memoryOperation : Mnemonic → Option (MemOperand → Nat → State → State)
  | .lda => some (load .a)
  | .ldx => some (load .x)
  | .ldy => some (load .y)
  | .sta => some (store .a)
  | .stx => some (store .x)
  | .sty => some (store .y)
  | .adc => some addWithCarry
  | .sbc => some subtractWithBorrow
  | .and => some (logic (· &&& ·))
  | .ora => some (logic (· ||| ·))
  | .eor => some (logic (· ^^^ ·))
  | .bit => some bitTest
  | .asl => some (shiftMemory shiftLeft)
  | .lsr => some (shiftMemory shiftRight)
  | .rol => some (shiftMemory rotateLeft)
  | .ror => some (shiftMemory rotateRight)
  | .cmp => some (compareRegister .a)
  | .cpx => some (compareRegister .x)
  | .cpy => some (compareRegister .y)
  | .inc => some (modifyMemory (· + 1#8))
  | .dec => some (modifyMemory (· - 1#8))
  | .jmp => some jump
  | .jsr => some callSubroutine
  | _ => none

/-- An instruction with a memory operand runs the operation of its mnemonic on it, at the base cycles of its row. -/
theorem exec_of_memoryOperation {i : Instr} {m : MemOperand} {op : MemOperand → Nat → State → State}
    (ho : i.operand = .memory m) (hop : memoryOperation i.mnemonic = some op) (s : State) :
    exec i s = .next (op m i.baseCycles s) := by
  cases i <;> cases ho <;> cases hop <;>
    (dsimp only [Instr.baseCycles, Instr.opcode, encode, List.headD_cons]; rfl)

/-- What the operation of an instruction's mnemonic makes of its operand is what the instruction completes with. -/
theorem completes_of_memoryOperation {i : Instr} {m : MemOperand} {op : MemOperand → Nat → State → State} {s : State}
    {Q : State → Prop} (ho : i.operand = .memory m) (hop : memoryOperation i.mnemonic = some op)
    (h : FollowsRow i s (op m i.baseCycles s) → Q (op m i.baseCycles s)) : Completes i s Q :=
  have hx := exec_of_memoryOperation ho hop s
  ⟨_, hx, h (followsRow_of_exec hx)⟩

theorem length_of_memory {i : Instr} {m : MemOperand} (ho : i.operand = .memory m) : i.length = m.mode.length := by
  rw [Instr.length, ho]
  rfl

theorem memoryOperation_load : ∀ p ∈ [(Mnemonic.lda, Reg8.a), (.ldx, .x), (.ldy, .y)],
    memoryOperation p.1 = some (load p.2) := by
  simp [memoryOperation]

theorem memoryOperation_store : ∀ p ∈ [(Mnemonic.sta, Reg8.a), (.stx, .x), (.sty, .y)],
    memoryOperation p.1 = some (store p.2) := by
  simp [memoryOperation]

/-! ## Loads and stores (R170–R175) -/

/-- Settles O29: the instruction runs `load` on its operand (`memoryOperation_load`), whose result and frame `load_spec`
says. -/
theorem loadResult : Obligations.LoadResult := by
  intro i r m s hr ho
  refine completes_of_memoryOperation ho (memoryOperation_load _ hr) fun hrow => ?_
  obtain ⟨hreg, hflags, hpc, -, -, hregs, hstatus, hmemory, hcontrol⟩ := load_spec r m i.baseCycles s
  rw [length_of_memory ho]
  exact ⟨hreg, hflags, hpc, hregs, hstatus, hmemory, hcontrol, hrow⟩

/-- Settles O30: the instruction runs `store` on its operand (`memoryOperation_store`), whose stored byte and frame
`store_spec` says. -/
theorem storeResult : Obligations.StoreResult := by
  intro i r m s hr ho hw
  refine completes_of_memoryOperation ho (memoryOperation_store _ hr) fun hrow => ?_
  obtain ⟨hread, hpc, -, -, -, hregs, hstatus, hmemory, hcontrol⟩ := store_spec r m i.baseCycles hw
  rw [length_of_memory ho]
  exact ⟨hread, hmemory, hpc, hregs, hstatus, hcontrol, hrow⟩

end Sys2Proof.Machine

/-! SUPPORT. The arithmetic and logic instructions (43_arith_logic.md R190–R198), from what the sum and the difference of two
bytes are as numbers: the difference is the sum with the complement, and V says that the exact signed sum does not fit. -/

namespace Sys2Proof.Machine

open Sys2Proof

/-! ## The sum and the difference as numbers (R190, R191) -/

theorem addBytes_value_toNat (a m : Byte) (c : Bool) :
    (addBytes a m c).value.toNat = (a.toNat + m.toNat + c.toNat) % 256 :=
  BitVec.toNat_ofNat ..

theorem subBytes_value_toNat (a m : Byte) (c : Bool) :
    ((subBytes a m c).value.toNat : Int) = ((a.toNat : Int) - m.toNat - (1 - c.toNat)) % 256 := by
  rw [subBytes, BitVec.toNat_ofInt]
  exact Int.toNat_of_nonneg (Int.emod_nonneg _ (by decide))

theorem byte_bne_eq_decide (x y : Byte) : (x != y) = decide (x ≠ y) := by
  rw [Bool.eq_iff_iff, bne_iff_ne, decide_eq_true_iff]

theorem addBytes_overflow (a m : Byte) (c : Bool) :
    (addBytes a m c).overflow = decide (~~~(a ^^^ m) &&& (a ^^^ (addBytes a m c).value) &&& 0x80#8 ≠ 0#8) :=
  byte_bne_eq_decide ..

theorem subBytes_overflow (a m : Byte) (c : Bool) :
    (subBytes a m c).overflow = decide ((a ^^^ m) &&& (a ^^^ (subBytes a m c).value) &&& 0x80#8 ≠ 0#8) :=
  byte_bne_eq_decide ..

/-! ## The difference is the sum with the complement (R198) -/

theorem byte_not_toNat (m : Byte) : ((~~~m).toNat : Int) = 255 - m.toNat := by
  have := m.isLt
  rw [BitVec.toNat_not]
  omega

theorem byte_not_toInt (m : Byte) : (~~~m).toInt = -m.toInt - 1 := by
  have hnot := byte_not_toNat m
  rw [BitVec.toInt_eq_toNat_cond, BitVec.toInt_eq_toNat_cond]
  omega

/-- Two bytes have different signs when one has the sign of the other's complement. -/
theorem byte_not_xor_not (a m : Byte) : ~~~(a ^^^ ~~~m) = a ^^^ m := by
  rw [BitVec.xor_comm, BitVec.not_xor_left, BitVec.not_not, BitVec.xor_comm]

theorem ArithResult.eq_of_fields {r q : ArithResult} (hvalue : r.value = q.value) (hcarry : r.carry = q.carry)
    (hoverflow : r.overflow = q.overflow) : r = q := by
  cases r
  cases q
  exact ArithResult.mk.injEq .. ▸ ⟨hvalue, hcarry, hoverflow⟩

/-- `A + (255 - M) + C` is `A - M - (1 - C)`, 256 higher: so the values agree modulo 256, and its carry is no borrow. -/
theorem subBytes_eq_addBytes_not (a m : Byte) (c : Bool) : subBytes a m c = addBytes a (~~~m) c := by
  have hnot := byte_not_toNat m
  have hvalue : (subBytes a m c).value = (addBytes a (~~~m) c).value := by
    have hsub := subBytes_value_toNat a m c
    have hadd := addBytes_value_toNat a (~~~m) c
    exact BitVec.eq_of_toNat_eq (by omega)
  have hcarry : (subBytes a m c).carry = (addBytes a (~~~m) c).carry :=
    decide_eq_decide.mpr (by omega)
  have hoverflow : (subBytes a m c).overflow = (addBytes a (~~~m) c).overflow := by
    rw [subBytes_overflow, addBytes_overflow, byte_not_xor_not, hvalue]
  exact ArithResult.eq_of_fields hvalue hcarry hoverflow

/-! ## V is signed overflow (R196) -/

theorem byte_and_signMask_ne_zero_iff (x : Byte) : x &&& 0x80#8 ≠ 0#8 ↔ x.getLsbD 7 = true := by
  have h : x &&& 0x80#8 = if x.getLsbD 7 then 0x80#8 else 0#8 := BitVec.and_twoPow x 7
  rw [h]
  split <;> simp_all

/-- R190's exclusive-or test in words: the two bytes have one sign, and the result has the other. -/
theorem addBytes_overflow_iff_signs (a m : Byte) (c : Bool) :
    (addBytes a m c).overflow = true ↔
      (128 ≤ a.toNat ↔ 128 ≤ m.toNat) ∧ ¬(128 ≤ a.toNat ↔ 128 ≤ (addBytes a m c).value.toNat) := by
  rw [addBytes_overflow, decide_eq_true_iff, byte_and_signMask_ne_zero_iff, BitVec.getLsbD_and, BitVec.getLsbD_not,
    BitVec.getLsbD_xor, BitVec.getLsbD_xor, byte_bit7, byte_bit7, byte_bit7]
  simp

theorem addBytes_overflow_iff (a m : Byte) (c : Bool) :
    (addBytes a m c).overflow = true ↔
      a.toInt + m.toInt + (c.toNat : Int) < -128 ∨ 127 < a.toInt + m.toInt + (c.toNat : Int) := by
  rw [addBytes_overflow_iff_signs, addBytes_value_toNat, BitVec.toInt_eq_toNat_cond, BitVec.toInt_eq_toNat_cond]
  have := a.isLt
  have := m.isLt
  have := c.toNat_le
  omega

theorem subBytes_overflow_iff (a m : Byte) (c : Bool) :
    (subBytes a m c).overflow = true ↔
      a.toInt - m.toInt - (1 - (c.toNat : Int)) < -128 ∨ 127 < a.toInt - m.toInt - (1 - (c.toNat : Int)) := by
  have hexact : a.toInt - m.toInt - (1 - (c.toNat : Int)) = a.toInt + (~~~m).toInt + c.toNat := by
    rw [byte_not_toInt]
    omega
  rw [subBytes_eq_addBytes_not, addBytes_overflow_iff, hexact]

/-! ## ADC and SBC -/

/-- Settles O31: the instruction runs `addWithCarry` on its operand, whose frame `addWithCarry_spec` says; the value and the
V test are `addBytes`'s. -/
theorem adcResult : Obligations.AdcResult := by
  intro i m s hmn ho M sum
  refine completes_of_memoryOperation (op := addWithCarry) ho (hmn ▸ rfl) fun hrow => ?_
  obtain ⟨ha, hc, hv, hflags, hpc, -, -, hregs, hstatus, hmemory, hcontrol⟩ := addWithCarry_spec m i.baseCycles s
  rw [length_of_memory ho, ha]
  exact ⟨addBytes_value_toNat .., hc, hv.trans (addBytes_overflow ..), hflags, hpc, hregs, hstatus, hmemory, hcontrol, hrow⟩

/-- Settles O32: the instruction runs `subtractWithBorrow` on its operand, whose frame `subtractWithBorrow_spec` says; the
value and the V test are `subBytes`'s. -/
theorem sbcResult : Obligations.SbcResult := by
  intro i m s hmn ho M diff
  refine completes_of_memoryOperation (op := subtractWithBorrow) ho (hmn ▸ rfl) fun hrow => ?_
  obtain ⟨ha, hc, hv, hflags, hpc, -, -, hregs, hstatus, hmemory, hcontrol⟩ := subtractWithBorrow_spec m i.baseCycles s
  rw [length_of_memory ho, ha]
  exact ⟨subBytes_value_toNat .., hc, hv.trans (subBytes_overflow ..), hflags, hpc, hregs, hstatus, hmemory, hcontrol, hrow⟩

/-- Settles O33: V is the overflow of the sum (`addBytes_overflow_iff`) or of the difference, which is that of the sum with
the complement (`subBytes_overflow_iff`). -/
theorem overflowIsSignedOverflow : Obligations.OverflowIsSignedOverflow := by
  intro i m s ho
  refine ⟨fun hmn => ?adc, fun hmn => ?sbc⟩
  case adc =>
    refine completes_of_memoryOperation (op := addWithCarry) ho (hmn ▸ rfl) fun _ => ?_
    obtain ⟨-, -, hv, -⟩ := addWithCarry_spec m i.baseCycles s
    exact hv ▸ addBytes_overflow_iff ..
  case sbc =>
    refine completes_of_memoryOperation (op := subtractWithBorrow) ho (hmn ▸ rfl) fun _ => ?_
    obtain ⟨-, -, hv, -⟩ := subtractWithBorrow_spec m i.baseCycles s
    exact hv ▸ subBytes_overflow_iff ..

theorem operandByte_immediate (imm : Byte) (s : State) : operandByte (.immediate imm) s = imm := rfl

/-- Settles O34: both write the same sum into A and P by `arithmetic` (`subBytes_eq_addBytes_not`), and their ends write
neither. -/
theorem sbcIsAdcOfComplement : Obligations.SbcIsAdcOfComplement := by
  intro i m s hmn ho
  refine completes_of_memoryOperation (op := subtractWithBorrow) ho (hmn ▸ rfl) fun _ =>
    completes_of_memoryOperation (op := addWithCarry) rfl rfl fun _ => ?_
  rw [subtractWithBorrow, subBytes_eq_addBytes_not, addWithCarry, operandByte_immediate]
  simp only [State.retire_a, State.retire_p, and_self]

/-! ## AND, ORA, EOR and BIT -/

/-- The operation of each of the three is `logic` with a function on bytes, which acts on every bit alike. -/
theorem memoryOperation_logic : ∀ mn ∈ [Mnemonic.and, .ora, .eor], ∃ f : Byte → Byte → Byte,
    memoryOperation mn = some (logic f) ∧ ∀ (a m : Byte) (k : Nat),
      (mn = .and → (f a m).getLsbD k = (a.getLsbD k && m.getLsbD k)) ∧
      (mn = .ora → (f a m).getLsbD k = (a.getLsbD k || m.getLsbD k)) ∧
      (mn = .eor → (f a m).getLsbD k = (a.getLsbD k ^^ m.getLsbD k)) := by
  intro mn hmn
  simp only [List.mem_cons, List.not_mem_nil, or_false] at hmn
  rcases hmn with rfl | rfl | rfl
  · exact ⟨_, rfl, fun _ _ _ => ⟨fun _ => BitVec.getLsbD_and, nofun, nofun⟩⟩
  · exact ⟨_, rfl, fun _ _ _ => ⟨nofun, fun _ => BitVec.getLsbD_or, nofun⟩⟩
  · exact ⟨_, rfl, fun _ _ _ => ⟨nofun, nofun, fun _ => BitVec.getLsbD_xor⟩⟩

/-- Settles O36: the instruction runs `logic` with its function on its operand (`memoryOperation_logic`), whose result and
frame `logic_spec` says. -/
theorem logicResult : Obligations.LogicResult := by
  intro i m s hmn ho
  obtain ⟨f, hop, hbits⟩ := memoryOperation_logic _ hmn
  refine completes_of_memoryOperation ho hop fun hrow => ?_
  obtain ⟨ha, hflags, hpc, -, -, hregs, hstatus, hmemory, hcontrol⟩ := logic_spec f m i.baseCycles s
  rw [length_of_memory ho, ha]
  exact ⟨fun k _ => hbits s.a (operandByte m s) k, hflags, hpc, hregs, hstatus, hmemory, hcontrol, hrow⟩

/-- Settles O37: the instruction runs `bitTest` on its operand, whose flags and frame `bitTest_spec` says. -/
theorem bitResult : Obligations.BitResult := by
  intro i m s hmn ho
  refine completes_of_memoryOperation (op := bitTest) ho (hmn ▸ rfl) fun hrow => ?_
  obtain ⟨hz, hn, hv, hpc, -, -, hregs, hstatus, hmemory, hcontrol⟩ := bitTest_spec m i.baseCycles s
  rw [length_of_memory ho]
  exact ⟨hz.trans (beq_eq_decide ..), hn, hv, hpc, hregs, hstatus, hmemory, hcontrol, hrow⟩

end Sys2Proof.Machine

/-! SUPPORT. The shifts and rotates (44_shift_rotate.md R210–R213), from what their function makes of a byte and C, and from
the operation that runs it on A or on a memory byte. -/

namespace Sys2Proof.Machine

open Sys2Proof

/-! ## The function of a mnemonic and the operation that runs it -/

/-- What each of the four makes of a byte and C. -/
def shiftFunction : Mnemonic → Option (Byte → Bool → ShiftResult)
  | .asl => some shiftLeft
  | .lsr => some shiftRight
  | .rol => some rotateLeft
  | .ror => some rotateRight
  | _ => none

theorem memoryOperation_shift {mn : Mnemonic} {f : Byte → Bool → ShiftResult} (hf : shiftFunction mn = some f) :
    memoryOperation mn = some (shiftMemory f) := by
  cases mn <;> cases hf <;> rfl

/-- In Accumulator mode an instruction runs the function of its mnemonic on A, at the base cycles of its row. -/
theorem exec_accumulator {i : Instr} {f : Byte → Bool → ShiftResult} (ho : i.operand = .accumulator)
    (hf : shiftFunction i.mnemonic = some f) (s : State) : exec i s = .next (shiftAccumulator f i.baseCycles s) := by
  cases i <;> cases ho <;> cases hf <;> rfl

/-! ## The result and the carry out as the rules say them -/

/-- R210–R213: what each mnemonic makes of the byte `v` with the prior carry `c`: the byte `r`, and `carry` for C. -/
def ShiftsTo (mn : Mnemonic) (c : Nat) (v r : Byte) (carry : Bool) : Prop :=
  (mn = .asl → r.toNat = v.toNat * 2 % 256 ∧ carry = v.getLsbD 7) ∧
  (mn = .lsr → r.toNat = v.toNat / 2 ∧ carry = v.getLsbD 0) ∧
  (mn = .rol → r.toNat = (v.toNat * 2 + c) % 256 ∧ carry = v.getLsbD 7) ∧
  (mn = .ror → r.toNat = v.toNat / 2 + 128 * c ∧ carry = v.getLsbD 0)

theorem shiftLeft_toNat (v : Byte) (c : Bool) : (shiftLeft v c).value.toNat = v.toNat * 2 % 256 := by
  rw [shiftLeft, BitVec.toNat_shiftLeft, Nat.shiftLeft_eq, pow_one]

theorem shiftRight_toNat (v : Byte) (c : Bool) : (shiftRight v c).value.toNat = v.toNat / 2 := by
  rw [shiftRight, BitVec.toNat_ushiftRight, Nat.shiftRight_one]

/-- Each of the four has a function, which gives the result and the carry out of its rule. -/
theorem exists_shiftFunction {mn : Mnemonic} (hmn : mn ∈ [Mnemonic.asl, .lsr, .rol, .ror]) :
    ∃ f, shiftFunction mn = some f ∧ ∀ v c, ShiftsTo mn c.toNat v (f v c).value (f v c).carry := by
  simp only [List.mem_cons, List.not_mem_nil, or_false] at hmn
  rcases hmn with rfl | rfl | rfl | rfl
  · exact ⟨_, rfl, fun v c => ⟨fun _ => ⟨shiftLeft_toNat v c, rfl⟩, nofun, nofun, nofun⟩⟩
  · exact ⟨_, rfl, fun v c => ⟨nofun, fun _ => ⟨shiftRight_toNat v c, rfl⟩, nofun, nofun⟩⟩
  · exact ⟨_, rfl, fun v c => ⟨nofun, nofun, fun _ => ⟨rotateLeft_toNat v c, rfl⟩, nofun⟩⟩
  · exact ⟨_, rfl, fun v c => ⟨nofun, nofun, nofun, fun _ => ⟨rotateRight_toNat v c, rfl⟩⟩⟩

/-! ## The byte that a memory form reads (R96, R155) -/

theorem operandMode_mem_modes (i : Instr) : i.operand.mode ∈ i.mnemonic.modes :=
  List.contains_iff_mem.mp i.wellFormedEncoding.1

/-- An instruction whose mnemonic has no Immediate mode reads its operand byte at the effective address. -/
theorem operandByte_eq_readByte_of_immediate_not_mem {i : Instr} {m : MemOperand} (s : State)
    (ho : i.operand = .memory m) (hmodes : Mode.immediate ∉ i.mnemonic.modes) :
    operandByte m s = s.readByte (effectiveAddress m s) := by
  refine operandByte_eq_readByte fun imm hm => absurd (operandMode_mem_modes i) ?_
  rw [ho, hm]
  exact hmodes

theorem immediate_not_mem_modes_of_shift :
    ∀ mn ∈ [Mnemonic.asl, .lsr, .rol, .ror], Mode.immediate ∉ mn.modes := by
  decide

/-! ## ASL, LSR, ROL and ROR -/

/-- Settles O38: the instruction runs its function (`exists_shiftFunction`) by `shiftAccumulator` on A or by `shiftMemory` on
the byte at the effective address, whose results and frames `shiftAccumulator_spec` and `shiftMemory_spec` say. -/
theorem shiftResult : Obligations.ShiftResult := by
  intro i s hmn c Shifted
  obtain ⟨f, hf, hshift⟩ := exists_shiftFunction hmn
  refine ⟨fun ho => ?accumulator, fun m ho hw => ?memory⟩
  case accumulator =>
    have hx := exec_accumulator ho hf s
    obtain ⟨ha, hc, hflags, hpc, -, -, hregs, hstatus, hmemory, hcontrol⟩ := shiftAccumulator_spec f i.baseCycles s
    refine ⟨_, hx, ?_, ha ▸ hflags, hpc, hregs, hstatus, hmemory, hcontrol, followsRow_of_exec hx⟩
    rw [ha, hc]
    exact hshift s.a (s.flag .c)
  case memory =>
    refine completes_of_memoryOperation ho (memoryOperation_shift hf) fun hrow => ?_
    have hbyte := operandByte_eq_readByte_of_immediate_not_mem s ho (immediate_not_mem_modes_of_shift _ hmn)
    obtain ⟨hread, hc, hflags, hpc, -, -, hregs, hstatus, hmemory, hcontrol⟩ := shiftMemory_spec f m i.baseCycles hw
    rw [length_of_memory ho]
    refine ⟨?_, hread ▸ hflags, hpc, hregs, hstatus, hmemory, hcontrol, hrow⟩
    rw [hread, hc, hbyte]
    exact hshift (s.readByte (effectiveAddress m s)) (s.flag .c)

end Sys2Proof.Machine

/-! SUPPORT. The compares, increments and decrements (45_compare_incdec.md R230–R238), from the difference of two bytes as a
number and from the function on bytes that an increment or decrement runs. -/

namespace Sys2Proof.Machine

open Sys2Proof

/-! ## Differences and steps of one as numbers -/

theorem byte_sub_toNat (v w : Byte) : (v - w).toNat = (v.toNat + (256 - w.toNat)) % 256 := by
  rw [BitVec.toNat_sub, Nat.add_comm]

theorem byte_sub_toNat_eq_zero_iff (v w : Byte) : (v - w).toNat = 0 ↔ v = w := by
  bv_omega

/-- Modulo 256, one less is 255 more. -/
theorem byte_sub_one_toNat (v : Byte) : (v - 1#8).toNat = (v.toNat + 255) % 256 :=
  byte_sub_toNat v 1#8

/-! ## CMP, CPX and CPY (R230–R232) -/

theorem memoryOperation_compare : ∀ p ∈ [(Mnemonic.cmp, Reg8.a), (.cpx, .x), (.cpy, .y)],
    memoryOperation p.1 = some (compareRegister p.2) := by
  simp [memoryOperation]

/-- Settles O39: the instruction runs `compareRegister` on its operand (`memoryOperation_compare`), whose flags are those of
the difference by `compareRegister_spec`; the difference is zero when the bytes are equal (`byte_sub_toNat_eq_zero_iff`). -/
theorem compareResult : Obligations.CompareResult := by
  intro i r m s hr ho M
  refine completes_of_memoryOperation ho (memoryOperation_compare _ hr) fun hrow => ?_
  obtain ⟨hc, ⟨hz, hn⟩, hpc, -, -, hregs, hstatus, hmemory, hcontrol⟩ := compareRegister_spec r m i.baseCycles s
  rw [length_of_memory ho]
  refine ⟨hc, hz.trans ?zero, hn.trans ?negative, hpc, hregs, hstatus, hmemory, hcontrol, hrow⟩
  case zero => exact decide_eq_decide.mpr (byte_sub_toNat_eq_zero_iff ..)
  case negative => rw [byte_sub_toNat]

/-! ## INC and DEC (R233, R234) -/

/-- The operation of each of the two is `modifyMemory` with a function on bytes, one more or one less modulo 256. -/
theorem memoryOperation_incDec : ∀ mn ∈ [Mnemonic.inc, .dec], ∃ f : Byte → Byte,
    memoryOperation mn = some (modifyMemory f) ∧ ∀ v : Byte,
      (mn = .inc → (f v).toNat = (v.toNat + 1) % 256) ∧ (mn = .dec → (f v).toNat = (v.toNat + 255) % 256) := by
  intro mn hmn
  simp only [List.mem_cons, List.not_mem_nil, or_false] at hmn
  rcases hmn with rfl | rfl
  · exact ⟨_, rfl, fun v => ⟨fun _ => BitVec.toNat_add v 1#8, nofun⟩⟩
  · exact ⟨_, rfl, fun v => ⟨nofun, fun _ => byte_sub_one_toNat v⟩⟩

theorem immediate_not_mem_modes_of_incDec : ∀ mn ∈ [Mnemonic.inc, .dec], Mode.immediate ∉ mn.modes := by
  decide

/-- Settles O40: the instruction runs `modifyMemory` with its function (`memoryOperation_incDec`) on the byte at the effective
address, whose result and frame `modifyMemory_spec` says. -/
theorem incDecMemoryResult : Obligations.IncDecMemoryResult := by
  intro i m s hmn ho hw v
  obtain ⟨f, hop, hf⟩ := memoryOperation_incDec _ hmn
  refine completes_of_memoryOperation ho hop fun hrow => ?_
  have hbyte : operandByte m s = v :=
    operandByte_eq_readByte_of_immediate_not_mem s ho (immediate_not_mem_modes_of_incDec _ hmn)
  obtain ⟨hread, hflags, hpc, -, -, hregs, hstatus, hmemory, hcontrol⟩ := modifyMemory_spec f m i.baseCycles hw
  rw [hbyte] at hread hflags
  obtain ⟨hinc, hdec⟩ := hf v
  rw [length_of_memory ho, hread]
  exact ⟨hinc, hdec, hflags, hpc, hregs, hstatus, hmemory, hcontrol, hrow⟩

/-! ## INX, INY, DEX and DEY (R235–R238) -/

/-- Each of the four runs `modifyRegister` on its register with a function on bytes, which adds `k` modulo 256. -/
theorem exec_incDecRegister : ∀ p ∈ [(Instr.inx, Reg8.x, 1), (.iny, .y, 1), (.dex, .x, 255), (.dey, .y, 255)],
    ∃ f : Byte → Byte, (∀ s, exec p.1 s = .next (modifyRegister f p.2.1 2 s)) ∧
      ∀ v : Byte, (f v).toNat = (v.toNat + p.2.2) % 256 := by
  intro p hp
  simp only [List.mem_cons, List.not_mem_nil, or_false] at hp
  rcases hp with rfl | rfl | rfl | rfl
  · exact ⟨_, fun _ => rfl, (BitVec.toNat_add · 1#8)⟩
  · exact ⟨_, fun _ => rfl, (BitVec.toNat_add · 1#8)⟩
  · exact ⟨_, fun _ => rfl, byte_sub_one_toNat⟩
  · exact ⟨_, fun _ => rfl, byte_sub_one_toNat⟩

/-- Settles O41: the instruction runs `modifyRegister` with its function (`exec_incDecRegister`), whose result and frame
`modifyRegister_spec` says. -/
theorem incDecRegisterResult : Obligations.IncDecRegisterResult := by
  intro i r k s hi
  obtain ⟨f, hx, hf⟩ := exec_incDecRegister _ hi
  obtain ⟨hreg, hflags, hpc, -, -, hregs, hstatus, hmemory, hcontrol⟩ := modifyRegister_spec f r 2 s
  refine ⟨_, hx s, ?result, hreg ▸ hflags, hpc, hregs, hstatus, hmemory, hcontrol, followsRow_of_exec (hx s)⟩
  case result => rw [hreg, hf]

end Sys2Proof.Machine

/-! SUPPORT. The conditional branches (46_branch.md R250–R258), from the one operation that all eight run and from the two
places where it can leave PC, as numbers on the 16-bit circle. -/

namespace Sys2Proof.Machine

open Sys2Proof

/-! ## The operation of a branch (R250) -/

/-- All eight branches cost two cycles before the extra ones. -/
theorem baseCycles_of_branch {i : Instr} {c : Flag × Bool} (hb : branchCondition i.mnemonic = some c) :
    i.baseCycles = 2 :=
  le_antisymm (slowestRow_of_branch hb ▸ baseCycles_le_slowestRow i) (two_le_baseCycles i)

/-- The only instructions with a relative operand are the eight branches, and each runs `branch` on its condition. -/
theorem exec_of_branch {i : Instr} {rel : Byte} {f : Flag} {wanted : Bool}
    (hb : branchCondition i.mnemonic = some (f, wanted)) (ho : i.operand = .relative rel) (s : State) :
    exec i s = .next (branch f wanted rel 2 s) := by
  cases i <;> cases ho <;> cases hb <;> rfl

/-- The row of its rule that a branch follows has the mark `b`. -/
theorem hasRow_of_branch {i : Instr} {c : Flag × Bool} (hb : branchCondition i.mnemonic = some c) :
    HasRow i i.opcode 2 .branch := by
  have hrow := hasRow i
  rwa [baseCycles_of_branch hb, (extraCycles_eq_branch_iff i).mpr (hb ▸ nofun)] at hrow

/-! ## The two successors as numbers (R153, R250) -/

/-- The address after the two bytes wraps at 65536. -/
theorem branchNext_toNat (pc : Word) : ((pc + 2#16).toNat : Int) = ((pc.toNat : Int) + 2) % 65536 := by
  rw [BitVec.toNat_add]
  rfl

/-- The offset counts from the address after the two bytes, wrapped or not. -/
theorem branchTarget_toNat (pc : Word) (rel : Byte) :
    ((branchTarget pc rel).toNat : Int) = (((pc.toNat : Int) + 2) % 65536 + rel.toInt) % 65536 := by
  rw [Int.emod_add_emod]
  exact (branchTarget_eq_iff ..).mp rfl

/-- The target is on another page than the address after the two bytes, in the numbers of `branchTarget_toNat`. -/
theorem branchPage_int_iff (pc : Word) (rel : Byte) :
    (hiByte (branchTarget pc rel) != hiByte (pc + 2#16)) = true ↔
      (((pc.toNat : Int) + 2) % 65536 + rel.toInt) % 65536 / 256 ≠ ((pc.toNat : Int) + 2) % 65536 / 256 := by
  rw [branchPage_iff, ← branchTarget_toNat]
  omega

/-! ## The eight branches (R251–R258) -/

/-- Settles O42: the instruction runs `branch` on its condition (`exec_of_branch`), whose two successors, costs and frame
`branch_spec` says; the successors and the page comparison are the statement's numbers (`branchTarget_toNat`,
`branchNext_toNat`, `branchPage_int_iff`). -/
theorem branchResult : Obligations.BranchResult := by
  intro i rel f wanted s hb ho next target
  obtain ⟨hpc, hcost, -, -, hregs, hstatus, hmemory, hcontrol⟩ := branch_spec f wanted rel 2 s
  refine ⟨_, exec_of_branch hb ho s, fun hflag => ?taken, fun hflag => ?notTaken, ⟨_, hasRow_of_branch hb⟩,
    hregs, hstatus, hmemory, hcontrol⟩
  case taken =>
    rw [if_pos hflag] at hpc hcost
    refine ⟨hpc ▸ branchTarget_toNat s.pc rel, ?_⟩
    rw [cost_toNat hcost (by split_ifs <;> decide)]
    simp only [Bool.and_eq_true, branchPage_int_iff]
    rfl
  case notTaken =>
    rw [if_neg hflag] at hpc hcost
    exact ⟨hpc ▸ branchNext_toNat s.pc, cost_toNat hcost (by decide)⟩

end Sys2Proof.Machine

/-! SUPPORT. The jumps and returns (47_jump_subroutine.md R270–R273), from the frame of each one's operation; that RTS undoes
JSR is a consequence of what the two rules say. -/

namespace Sys2Proof.Machine

open Sys2Proof

/-! ## What a return pulls, and what the return from a trap leaves alone (R272, R273) -/

theorem wordOf_toNat_high_first (lo hi : Byte) : (wordOf lo hi).toNat = hi.toNat * 256 + lo.toNat := by
  rw [wordOf_toNat, Nat.add_comm, Nat.mul_comm]

/-- Trap return changes no register but S, no memory and no control state. -/
theorem returnFromTrap_frame (base : Nat) (s : State) :
    RegsKept [.s] s (returnFromTrap base s) ∧ MemKept [] s (returnFromTrap base s) ∧
      ControlKept s (returnFromTrap base s) := by
  obtain ⟨ha, hx, hy, -, -, -, hmem, -, hcontrol⟩ := returnFromTrap_fields base s
  exact ⟨.of_fields (fun _ => ha) (fun _ => hx) (fun _ => hy) (absurd List.mem_cons_self), .refl hmem, hcontrol⟩

/-! ## JMP, JSR, RTS and RTI (R270–R273) -/

/-- Settles O43: the instruction runs `jump` on its operand, whose target and frame `jump_spec` says. -/
theorem jmpResult : Obligations.JmpResult := by
  intro i m s hmn ho
  refine completes_of_memoryOperation (op := jump) ho (by rw [hmn]; rfl) fun hrow => ?_
  obtain ⟨hpc, -, -, -, hregs, hstatus, hmemory, hcontrol⟩ := jump_spec m i.baseCycles s
  exact ⟨hpc, hregs, hstatus, hmemory, hcontrol, hrow⟩

/-- Settles O44: JSR runs `callSubroutine` on its target, whose pushed bytes and frame `callSubroutine_spec` says. -/
theorem jsrResult : Obligations.JsrResult := by
  intro target s hw ret
  refine completes_of_memoryOperation (op := callSubroutine) (m := .absolute target) rfl rfl fun hrow => ?_
  obtain ⟨hhi, hlo, hs, hpc, -, -, -, hregs, hstatus, hmemory, hcontrol⟩ :=
    callSubroutine_spec (.absolute target) (Instr.jsrAbs target).baseCycles hw
  exact ⟨hhi, hlo, hs, hpc, hregs, hstatus, hmemory, hcontrol, hrow⟩

/-- Settles O45: RTS runs `returnFromSubroutine`, whose fields and frame `returnFromSubroutine_spec` says; the pulled word is
the number of its bytes (`wordOf_toNat_high_first`). -/
theorem rtsResult : Obligations.RtsResult := by
  intro s lo hi
  have hx : exec .rts s = .next (returnFromSubroutine 6 s) := rfl
  obtain ⟨hpc, hs, -, -, -, hregs, hstatus, hmemory, hcontrol⟩ := returnFromSubroutine_spec 6 s
  refine ⟨_, hx, ?target, hs, hregs, hstatus, hmemory, hcontrol, followsRow_of_exec hx⟩
  case target =>
    rw [hpc, BitVec.toNat_add, wordOf_toNat_high_first]
    rfl

/-- Settles O46: RTI runs `returnFromTrap`, whose fields `returnFromTrap_fields` says and whose frame `returnFromTrap_frame`;
the pulled word is the number of its bytes (`wordOf_toNat_high_first`). -/
theorem rtiResult : Obligations.RtiResult := by
  intro s b lo hi
  have hx : exec .rti s = .next (returnFromTrap 6 s) := rfl
  obtain ⟨-, -, -, hs, hp, hpc, -, -, -⟩ := returnFromTrap_fields 6 s
  obtain ⟨hregs, hmemory, hcontrol⟩ := returnFromTrap_frame 6 s
  refine ⟨_, hx, hp, ?target, hs, hregs, hmemory, hcontrol, followsRow_of_exec hx⟩
  case target =>
    rw [hpc, wordOf_toNat_high_first]
    rfl

/-- Settles O47: RTS pulls the two bytes that JSR pushed (`jsrResult`, `rtsResult`), which are those of PC0 + 2, and adds one;
S goes down by two and up by two on the circle of 256. -/
theorem rtsReturnsPastJsr : Obligations.RtsReturnsPastJsr := by
  intro target s hw
  obtain ⟨t, hjsr, hhi, hlo, hdown, -⟩ := jsrResult target s hw
  obtain ⟨u, hrts, hpc, hup, -⟩ := rtsResult t
  have hfirst : t.s + 1#8 = s.s - 1#8 := by rw [hdown]; bv_omega
  have hsecond : t.s + 2#8 = s.s := by rw [hdown]; bv_omega
  refine ⟨t, hjsr, u, hrts, BitVec.eq_of_toNat_eq ?target, hup.trans hsecond⟩
  case target =>
    rw [hpc, hfirst, hsecond, hhi, hlo, hiByte_toNat, loByte_toNat]
    bv_omega

end Sys2Proof.Machine

/-! SUPPORT. Timing influences nothing else (70_reset_and_hazards.md R382, R383; 40_dispatch.md R126, R127): every effect from
a state with another cycle count and another STRICT_TIMING leaves the same state with another cycle count, and what the mark
`p` or `b` adds for a page crossing is one cycle at most. -/

namespace Sys2Proof.Machine

open Sys2Proof

/-! ## A state with its timing replaced -/

/-- `s` with another cycle count and another STRICT_TIMING. -/
def State.retime (n : Byte) (c : Config) (s : State) : State := { s with cyclesLast := n, cfg := c }

section

variable (s : State) (n : Byte) (c : Config)

/-! What an instruction reads does not depend on the timing. -/

@[simp] theorem State.retime_a : (s.retime n c).a = s.a := rfl
@[simp] theorem State.retime_x : (s.retime n c).x = s.x := rfl
@[simp] theorem State.retime_pc : (s.retime n c).pc = s.pc := rfl
@[simp] theorem State.retime_p : (s.retime n c).p = s.p := rfl
@[simp] theorem State.retime_cyclesLast : (s.retime n c).cyclesLast = n := rfl
@[simp] theorem State.retime_reg (r : Reg8) : (s.retime n c).reg r = s.reg r := by cases r <;> rfl
@[simp] theorem State.retime_flag (f : Flag) : (s.retime n c).flag f = s.flag f := rfl
@[simp] theorem State.retime_readWord (a : Word) : (s.retime n c).readWord a = s.readWord a := rfl
@[simp] theorem State.retime_pull_fst : (s.retime n c).pull.1 = s.pull.1 := rfl
@[simp] theorem State.retime_pullWord_fst : (s.retime n c).pullWord.1 = s.pullWord.1 := rfl

@[simp] theorem effectiveAddress_retime (m : MemOperand) : effectiveAddress m (s.retime n c) = effectiveAddress m s := by
  cases m <;> rfl

@[simp] theorem operandByte_retime (m : MemOperand) : operandByte m (s.retime n c) = operandByte m s := by
  cases m <;> rfl

/-! The operations commute with `retime`, and the end of an instruction writes the cycle count over. -/

@[simp] theorem State.retime_setReg (r : Reg8) (v : Byte) : (s.retime n c).setReg r v = (s.setReg r v).retime n c := by
  cases r <;> rfl

@[simp] theorem State.retime_setFlag (f : Flag) (v : Bool) : (s.retime n c).setFlag f v = (s.setFlag f v).retime n c := rfl
@[simp] theorem State.retime_setNZ (r : Byte) : (s.retime n c).setNZ r = (s.setNZ r).retime n c := rfl
@[simp] theorem State.retime_writeP (b : Byte) : (s.retime n c).writeP b = (s.writeP b).retime n c := rfl

@[simp] theorem State.retime_writeByte (a : Word) (v : Byte) :
    (s.retime n c).writeByte a v = (s.writeByte a v).retime n c := rfl

@[simp] theorem State.retime_setPc (w : Word) : (s.retime n c).setPc w = (s.setPc w).retime n c := rfl
@[simp] theorem State.retime_push (v : Byte) : (s.retime n c).push v = (s.push v).retime n c := rfl
@[simp] theorem State.retime_pushWord (w : Word) : (s.retime n c).pushWord w = (s.pushWord w).retime n c := rfl
@[simp] theorem State.retime_pull_snd : (s.retime n c).pull.2 = s.pull.2.retime n c := rfl
@[simp] theorem State.retime_pullWord_snd : (s.retime n c).pullWord.2 = s.pullWord.2.retime n c := rfl

@[simp] theorem State.retime_setCycles (k : Nat) : (s.retime n c).setCycles k = s.retime (BitVec.ofNat 8 k) c := rfl
@[simp] theorem State.setCycles_retime (k : Nat) : (s.setCycles k).retime n c = s.retime n c := rfl

@[simp] theorem State.retime_retire (l k : Nat) :
    (s.retime n c).retire l k = (s.setPc (s.pc + BitVec.ofNat 16 l)).retime (BitVec.ofNat 8 k) c := rfl

@[simp] theorem State.retire_retime (l k : Nat) :
    (s.retire l k).retime n c = (s.setPc (s.pc + BitVec.ofNat 16 l)).retime n c := rfl

@[simp] theorem noteFetch_retime : noteFetch (s.retime n c) = (noteFetch s).retime n c := rfl

theorem branch_retime (f : Flag) (wanted : Bool) (rel : Byte) (base : Nat) :
    branch f wanted rel base (s.retime n c) =
      (branch f wanted rel base s).retime (branch f wanted rel base (s.retime n c)).cyclesLast c := by
  unfold branch
  by_cases h : s.flag f = wanted <;> simp [h]

end

/-! ## Every instruction -/

/-- From a state with other timing, an effect leaves the same state with other timing. -/
theorem effect_retime {i : Instr} {f : State → State} (he : Effect i f) (s : State) (n : Byte) (c : Config) :
    f (s.retime n c) = (f s).retime (f (s.retime n c)).cyclesLast c := by
  cases he with
  | load => simp [load]
  | store => simp [store]
  | adc => simp [addWithCarry, arithmetic]
  | sbc => simp [subtractWithBorrow, arithmetic]
  | and | ora | eor => simp [logic]
  | bit => simp [bitTest]
  | aslAcc | lsrAcc | rolAcc | rorAcc => simp [shiftAccumulator]
  | aslMem | lsrMem | rolMem | rorMem => simp [shiftMemory]
  | compare => simp [compareRegister]
  | inc | dec => simp [modifyMemory]
  | incReg | decReg => simp [modifyRegister]
  | branch => exact branch_retime s n c _ _ _ _
  | jump => simp [jump]
  | call => simp [callSubroutine]
  | rts => simp [returnFromSubroutine]
  | rti => simp [returnFromTrap]
  | pha => simp [pushAccumulator]
  | php => simp [pushStatus]
  | pla => simp [pullAccumulator]
  | plp => simp [pullStatus]
  | flag => simp [writeFlag]
  | transfer => simp [transfer]
  | txs => simp [transferToStackPointer]
  | nop => simp [noOperation]
  | brk => simp [takeTrap]

/-- What an instruction costs without a page crossing: its base cycles, and one more for a branch that is taken. -/
def leastCost (i : Instr) (s : State) : Nat :=
  i.baseCycles +
    match branchCondition i.mnemonic with
    | some (f, wanted) => if s.flag f = wanted then 1 else 0
    | none => 0

theorem leastCost_of_no_branch {i : Instr} (s : State) (hb : branchCondition i.mnemonic = none) :
    leastCost i s = i.baseCycles := by
  rw [leastCost, hb]
  rfl

theorem leastCost_of_branch {i : Instr} {f : Flag} {wanted : Bool} (s : State)
    (hb : branchCondition i.mnemonic = some (f, wanted)) :
    leastCost i s = i.baseCycles + if s.flag f = wanted then 1 else 0 := by
  rw [leastCost, hb]

/-- A page crossing, with STRICT_TIMING or without, adds one cycle at most. -/
theorem CostFollows.bounds {i : Instr} {s t : State} (h : CostFollows i s t) :
    leastCost i s ≤ t.cyclesLast.toNat ∧ t.cyclesLast.toNat ≤ leastCost i s + 1 := by
  cases h with
  | fixed _ hb hc =>
    rw [leastCost_of_no_branch s hb, hc]
    omega
  | @read m _ hb _ hc =>
    have := pageExtra_le_one m s
    rw [leastCost_of_no_branch s hb, hc]
    omega
  | branch hb _ hc =>
    rw [leastCost_of_branch s hb, hc]
    split_ifs <;> omega

theorem leastCost_retime (i : Instr) (s : State) (n : Byte) (c : Config) : leastCost i (s.retime n c) = leastCost i s := rfl

/-- Two runs of an instruction from states that differ in timing alone cost at most one cycle more than each other. -/
theorem effect_retime_cost {i : Instr} {f : State → State} (he : Effect i f) (s : State) (n : Byte) (c : Config) :
    (f (s.retime n c)).cyclesLast.toNat ≤ (f s).cyclesLast.toNat + 1 := by
  obtain ⟨-, hupper⟩ := (effect_cost he (s.retime n c)).bounds
  obtain ⟨hlower, -⟩ := (effect_cost he s).bounds
  rw [leastCost_retime] at hupper
  omega

/-! ## Every step -/

/-- In `Ready` a byte with no table entry takes the fault entry (60_exceptions.md R341, R342). -/
theorem step_of_no_entry {s : State} (hr : s.runState = .ready) (he : opcodeEntry (s.readByte s.pc) = none) :
    step s = .next (haltWith .unimplementedOpcode (s.readByte s.pc) (noteFetch s)) := by
  have hd : decode (fetchBytes s) = .error (.unimplementedOpcode (s.readByte s.pc)) :=
    (decode_cons_eq_unimplementedOpcode_iff ..).mpr he
  simp only [step, hr, runFetched, hd]

/-- Settles O15, by the two things that a step can do (`step_cases`): an instruction's effect carries the other timing through
(`effect_retime`) at a cost within one cycle (`effect_retime_cost`), and the fault entry writes no cost and halts. -/
theorem timingInfluencesNothingElse : Obligations.TimingInfluencesNothingElse := by
  intro s t n c h
  change ∃ u, step (s.retime n c) = .next u ∧ u = t.retime u.cyclesLast c ∧ _
  obtain ⟨hr, ⟨i, rest, hd, hx⟩ | ⟨he, rfl⟩⟩ := step_cases h
  · obtain ⟨f, hf, he⟩ := exec_effect i
    obtain rfl : f (noteFetch s) = t := Host.Outcome.next.inj ((hf _).symm.trans hx)
    refine ⟨f ((noteFetch s).retime n c), ?_, effect_retime he _ n c, fun _ => effect_retime_cost he _ n c⟩
    rw [step_of_decode (s := s.retime n c) hr hd, noteFetch_retime, hf]
  · exact ⟨_, step_of_no_entry (s := s.retime n c) hr he, rfl, nofun⟩

end Sys2Proof.Machine

/-! SUPPORT. The stack instructions, the trap entry and return (48_stack.md R290–R293; 49_flags_transfer_misc.md R325;
60_exceptions.md R349, R350), from the frame of each one's operation; that PLP undoes PHP and RTI returns from BRK are
consequences of what the rules say. -/

namespace Sys2Proof.Machine

open Sys2Proof

/-! ## PHA, PHP, PLA and PLP (R290–R293) -/

/-- Settles O48: PHA runs `pushAccumulator` and PHP runs `pushStatus`, whose pushed byte and frame their `_spec` lemmas say. -/
theorem pushResult : Obligations.PushResult := by
  intro i v s hi hw
  simp only [List.mem_cons, Prod.mk.injEq, List.not_mem_nil, or_false] at hi
  rcases hi with ⟨rfl, rfl⟩ | ⟨rfl, rfl⟩
  · have hx : exec .pha s = .next (pushAccumulator 3 s) := rfl
    obtain ⟨hread, hs, hpc, -, -, -, hregs, hstatus, hmemory, hcontrol⟩ := pushAccumulator_spec 3 hw
    exact ⟨_, hx, hread, hs, hpc, hregs, hstatus, hmemory, hcontrol, followsRow_of_exec hx⟩
  · have hx : exec .php s = .next (pushStatus 3 s) := rfl
    obtain ⟨hread, hs, hpc, -, -, -, hregs, hstatus, hmemory, hcontrol⟩ := pushStatus_spec 3 hw
    exact ⟨_, hx, hread, hs, hpc, hregs, hstatus, hmemory, hcontrol, followsRow_of_exec hx⟩

/-- Settles O49: PLA runs `pullAccumulator`, whose byte, flags and frame `pullAccumulator_spec` says. -/
theorem plaResult : Obligations.PlaResult := by
  intro s b
  have hx : exec .pla s = .next (pullAccumulator 4 s) := rfl
  obtain ⟨ha, hflags, hs, hpc, -, -, hregs, hstatus, hmemory, hcontrol⟩ := pullAccumulator_spec 4 s
  exact ⟨_, hx, ha, hflags, hs, hpc, hregs, hstatus, hmemory, hcontrol, followsRow_of_exec hx⟩

/-- Settles O50: PLP runs `pullStatus`, whose fields `pullStatus_spec` says; the bits of a pulled status are those of
`statusFromByte_bit`. -/
theorem plpResult : Obligations.PlpResult := by
  intro s b
  have hx : exec .plp s = .next (pullStatus 4 s) := rfl
  obtain ⟨hp, hs, hpc, -, hmem, hregs, hcontrol⟩ := pullStatus_spec 4 s
  have hbit {k : Nat} (hk : k < 8) :
      (pullStatus 4 s).p.getLsbD k = if k = 5 then true else if k = 4 then false else b.getLsbD k :=
    hp ▸ statusFromByte_bit b hk
  refine ⟨_, hx, hbit (by decide), hbit (by decide), fun k hk h5 h4 => ?_, hs, hpc, hregs, .refl hmem, hcontrol,
    followsRow_of_exec hx⟩
  rw [hbit hk, if_neg h5, if_neg h4]

/-- Settles O51: PLP pulls the image that PHP pushed (`pushStatus_spec`, `pullStatus_spec`), from which a legal P comes back
(`statusFromByte_pushImage`); S goes down by one and up by one on the circle of 256. -/
theorem plpUndoesPhp : Obligations.PlpUndoesPhp := by
  intro s hs
  obtain ⟨hread, hdown, -⟩ := pushStatus_spec 3 hs.memory
  obtain ⟨hp, hup, -⟩ := pullStatus_spec 4 (pushStatus 3 s)
  have hback : (pushStatus 3 s).s + 1#8 = s.s := by rw [hdown]; bv_omega
  refine ⟨_, rfl, _, rfl, ?status, hup.trans hback⟩
  case status => rw [hp, hback, hread, statusFromByte_pushImage hs.reservedBit hs.breakBit]

/-! ## BRK, and RTI after it (R325, R349, R350) -/

/-- Trap entry changes no register but S, no flag but I, and no control state. -/
theorem takeTrap_frame (base : Nat) (s : State) :
    RegsKept [.s] s (takeTrap base s) ∧ StatusKept [.i] s (takeTrap base s) ∧ ControlKept s (takeTrap base s) := by
  obtain ⟨ha, hx, hy, -, hp, -, hcontrol⟩ := takeTrap_fields base s
  have hstatus : StatusKept [.i] s (s.setFlag .i true) := (StatusKept.refl rfl).setFlag true List.mem_cons_self
  exact ⟨.of_fields (fun _ => ha) (fun _ => hx) (fun _ => hy) (absurd List.mem_cons_self), hstatus.of_p hp, hcontrol⟩

theorem takeTrap_flag_i (base : Nat) (s : State) : (takeTrap base s).flag .i = true := by
  obtain ⟨-, -, -, -, hp, -⟩ := takeTrap_fields base s
  rw [State.flag, hp, getFlag_putFlag, if_pos rfl]

/-- Settles O52: BRK runs `takeTrap`, whose fields `takeTrap_fields` says, whose pushed bytes `takeTrap_memory`, whose vector
`takeTrap_pc` and whose frame `takeTrap_frame`. -/
theorem brkResult : Obligations.BrkResult := by
  intro s hw ret a₀ a₁ a₂
  have hx : exec .brk s = .next (takeTrap 7 s) := rfl
  obtain ⟨-, -, -, hs, -⟩ := takeTrap_fields 7 s
  obtain ⟨hhi, hlo, himage, hmemory, -⟩ := takeTrap_memory 7 hw
  obtain ⟨hregs, hstatus, hcontrol⟩ := takeTrap_frame 7 s
  refine ⟨_, hx, hhi, hlo, himage, takeTrap_flag_i 7 s, ?vector, hs, hregs, hstatus, hmemory, hcontrol,
    followsRow_of_exec hx⟩
  case vector =>
    rw [takeTrap_pc 7 hw]
    exact s.readWord_toNat _

/-- Settles O53: RTI pulls the three bytes that BRK pushed (`takeTrap_memory`, `returnFromTrap_fields`): a legal P comes back
from its image (`statusFromByte_pushImage`), and PC0 + 2 from its two bytes (`wordOf_lo_hi`); S goes down by three and up by
three on the circle of 256. -/
theorem rtiReturnsFromBrk : Obligations.RtiReturnsFromBrk := by
  intro s hs
  obtain ⟨-, -, -, hdown, -⟩ := takeTrap_fields 7 s
  obtain ⟨hhi, hlo, himage, -⟩ := takeTrap_memory 7 hs.memory
  obtain ⟨-, -, -, hup, hp, hpc, -⟩ := returnFromTrap_fields 6 (takeTrap 7 s)
  have hfirst : (takeTrap 7 s).s + 1#8 = s.s - 2#8 := by rw [hdown]; bv_omega
  have hsecond : (takeTrap 7 s).s + 2#8 = s.s - 1#8 := by rw [hdown]; bv_omega
  have hthird : (takeTrap 7 s).s + 3#8 = s.s := by rw [hdown]; bv_omega
  refine ⟨_, rfl, _, rfl, ?target, ?status, hup.trans hthird⟩
  case target => rw [hpc, hsecond, hthird, hlo, hhi, wordOf_lo_hi]
  case status => rw [hp, hfirst, himage, statusFromByte_pushImage hs.reservedBit hs.breakBit]

end Sys2Proof.Machine

/-! SUPPORT. The flag instructions, the transfers and NOP (49_flags_transfer_misc.md R310–R323), from the one operation that
each group runs. -/

namespace Sys2Proof.Machine

open Sys2Proof

/-- Each of the seven runs `writeFlag` on its flag. -/
theorem exec_flagInstruction : ∀ p ∈ [(Instr.sec, Flag.c, true), (.clc, .c, false), (.sed, .d, true), (.cld, .d, false),
    (.sei, .i, true), (.cli, .i, false), (.clv, .v, false)],
    ∀ s, exec p.1 s = .next (writeFlag p.2.1 p.2.2 2 s) := by
  simp only [List.forall_mem_cons]
  exact ⟨fun _ => rfl, fun _ => rfl, fun _ => rfl, fun _ => rfl, fun _ => rfl, fun _ => rfl, fun _ => rfl, nofun⟩

/-- Settles O54: the instruction runs `writeFlag` on its flag (`exec_flagInstruction`), whose result and frame `writeFlag_spec`
says. -/
theorem flagInstructionResult : Obligations.FlagInstructionResult := by
  intro i f v s hi
  have hx := exec_flagInstruction _ hi s
  obtain ⟨hflag, hpc, -, -, hregs, hstatus, hmemory, hcontrol⟩ := writeFlag_spec f v 2 s
  exact ⟨_, hx, hflag, hpc, hregs, hstatus, hmemory, hcontrol, followsRow_of_exec hx⟩

/-- Each of the five runs `transfer` on its two registers. -/
theorem exec_transfer : ∀ p ∈ [(Instr.tax, Reg8.a, Reg8.x), (.txa, .x, .a), (.tay, .a, .y), (.tya, .y, .a), (.tsx, .s, .x)],
    ∀ s, exec p.1 s = .next (transfer p.2.1 p.2.2 2 s) := by
  simp only [List.forall_mem_cons]
  exact ⟨fun _ => rfl, fun _ => rfl, fun _ => rfl, fun _ => rfl, fun _ => rfl, nofun⟩

/-- Settles O55: the instruction runs `transfer` on its registers (`exec_transfer`), whose result and frame `transfer_spec`
says. -/
theorem transferResult : Obligations.TransferResult := by
  intro i src dst s hi
  have hx := exec_transfer _ hi s
  obtain ⟨hreg, hflags, hpc, -, -, hregs, hstatus, hmemory, hcontrol⟩ := transfer_spec src dst 2 s
  exact ⟨_, hx, hreg, hflags, hpc, hregs, hstatus, hmemory, hcontrol, followsRow_of_exec hx⟩

/-- Settles O56: TXS runs `transferToStackPointer`, whose frame `transferToStackPointer_spec` says; NOP runs `noOperation`,
which is the end of an instruction and nothing before it. -/
theorem txsAndNopResult : Obligations.TxsAndNopResult := by
  refine fun s => ⟨?txs, ?nop⟩
  case txs =>
    have hx : exec .txs s = .next (transferToStackPointer 2 s) := rfl
    obtain ⟨hs, hpc, -, -, -, hregs, hstatus, hmemory, hcontrol⟩ := transferToStackPointer_spec 2 s
    exact ⟨_, hx, hs, hpc, hregs, hstatus, hmemory, hcontrol, followsRow_of_exec hx⟩
  case nop =>
    have hx : exec .nop s = .next (noOperation 2 s) := rfl
    exact ⟨_, hx, rfl, followsRow_of_exec hx⟩

end Sys2Proof.Machine

/-! SUPPORT. What the host gets from a step (60_exceptions.md R341–R347, R374): the fault at a byte with no table entry, the
cost at every other byte, and the stored answer outside `Ready`. -/

namespace Sys2Proof.Machine

open Sys2Proof

/-! ## A step in `Ready` (R341, R342, R347) -/

/-- In `Ready` a byte with a table entry is the opcode of an instruction, which the step runs. -/
theorem step_of_entry {s : State} {e : OpcodeEntry} (hr : s.runState = .ready)
    (he : opcodeEntry (s.readByte s.pc) = some e) : ∃ i, step s = exec i (noteFetch s) := by
  rcases decode_three (s.readByte s.pc) (s.readByte (s.pc + 1#16)) (s.readByte (s.pc + 2#16)) with
    ⟨-, hnone⟩ | ⟨i, rest, -, hd, -⟩
  · cases hnone.symm.trans he
  · exact ⟨i, step_of_decode hr hd⟩

theorem hostStep_of_halted {s t : State} (h : step s = .next t) (hr : t.runState = .halted) :
    hostStep s = (t, .fault (.halted t.fault)) := by
  simp only [hostStep, h, hr]

theorem hostStep_of_ready {s t : State} (h : step s = .next t) (hr : t.runState = .ready) :
    hostStep s = (t, .cycles t.cyclesLast) := by
  simp only [hostStep, h, hr]

/-- Settles O11: the byte has a table entry (`opcodeEntry_eq_none_iff`), the step runs its instruction (`step_of_entry`), and
no effect touches the control state that the fetch left (`effect_control`). -/
theorem definedOpcodesComplete : Obligations.DefinedOpcodesComplete := by
  intro s hr hdefined
  obtain ⟨e, he⟩ := Option.ne_none_iff_exists'.mp (mt (opcodeEntry_eq_none_iff _).mp hdefined)
  obtain ⟨i, hstep⟩ := step_of_entry hr he
  obtain ⟨f, hf, heffect⟩ := exec_effect i
  obtain ⟨hrun, hlast, hfault, hcfg⟩ := effect_control heffect (noteFetch s)
  have hnext : step s = .next (f (noteFetch s)) := hstep.trans (hf _)
  have hready : (f (noteFetch s)).runState = .ready := hrun.trans hr
  exact ⟨_, hnext, hready, hfault, hcfg, hlast, hostStep_of_ready hnext hready⟩

/-- Settles O9: one of the 105 bytes has no table entry (`opcodeEntry_eq_none_iff`), so the step takes the fault entry
(`step_of_no_entry`); every other byte completes (`definedOpcodesComplete`). -/
theorem unimplementedOpcodeHalts : Obligations.UnimplementedOpcodeHalts := by
  intro s hr opcode record
  refine ⟨fun hundefined => ?fault, fun hdefined => ?cycles⟩
  case fault => exact hostStep_of_halted (step_of_no_entry hr ((opcodeEntry_eq_none_iff _).mpr hundefined)) rfl
  case cycles =>
    obtain ⟨t, -, -, -, -, -, hhost⟩ := definedOpcodesComplete s hr hdefined
    exact ⟨t, _, hhost⟩

/-! ## A step outside `Ready` (R345, R346, R374) -/

theorem hostStep_uninitialized {s : State} (hr : s.runState = .uninitialized) :
    hostStep s = (s, .fault .notInitialized) := by
  simp only [hostStep, step, hr]

theorem hostStep_halted {s : State} (hr : s.runState = .halted) : hostStep s = (s, .fault (.halted s.fault)) := by
  simp only [hostStep, step, hr]

theorem initializeCore_refused {s : State} (hr : s.runState ≠ .uninitialized) :
    initializeCore s = .refused .alreadyInitialized := by
  unfold initializeCore
  split
  · next h => exact absurd h hr
  · rfl
  · rfl

/-- Settles O10: outside `Ready` a step answers the fault and the state it had (`hostStep_uninitialized`, `hostStep_halted`),
so a halted state is a fixed point of any number of steps. -/
theorem noStepOutsideReady : Obligations.NoStepOutsideReady := by
  refine ⟨fun s hr => hostStep_uninitialized hr, fun s n hr => ⟨?fixed, hostStep_halted hr, ?refused⟩⟩
  case fixed => exact Function.iterate_fixed (congrArg Prod.fst (hostStep_halted hr)) n
  case refused => exact initializeCore_refused (by rw [hr]; decide)

end Sys2Proof.Machine

/-! SUPPORT. The host's commands (70_reset_and_hazards.md R370–R376): what `construct` puts into memory, when `initializeCore` and
the fixture are refused, and the state after reset as what two commands give. -/

namespace Sys2Proof.Machine

open Sys2Proof

/-! ## construct (R371, R372) -/

theorem entryBytes_of_ne_zero {e : Word} (he : e ≠ 0#16) : entryBytes (some e) = [loByte e, hiByte e] :=
  if_neg he

theorem entryBytes_of_none_or_zero {ep : Option Word} (h : ep = none ∨ ep = some 0#16) : entryBytes ep = [] := by
  rcases h with rfl | rfl <;> rfl

/-- The state that `construct` makes: the image in `INIT_MEM`, the entry point's bytes over it, registers at `INIT_*`. -/
def constructedState (ip : InitParams) (cfg : Config) (rom : List Byte) (la : Nat) (ep : Option Word) : State where
  a := ip.a
  x := ip.x
  y := ip.y
  s := ip.s
  pc := ip.pc
  p := ip.p
  mem := (Memory.load ip.mem la rom).load Config.resetVector.toNat (entryBytes ep)
  runState := .uninitialized
  lastOpcode := none
  cyclesLast := 0#8
  fault := none
  cfg := cfg

section

variable {ip : InitParams} {cfg : Config} {rom : List Byte} {la : Nat} {ep : Option Word}

theorem construct_of_fits (hla : la ≤ 0xFFFF) (hfit : la + rom.length ≤ 65536) :
    construct ip cfg rom la ep = .next (constructedState ip cfg rom la ep) :=
  if_pos ⟨hla, hfit⟩

theorem construct_refused (h : ¬(la ≤ 0xFFFF ∧ la + rom.length ≤ 65536)) :
    construct ip cfg rom la ep = .refused .imageOutOfRange :=
  if_neg h

/-- A given, non-zero entry point stands at the reset vector, low byte first. -/
theorem constructedState_readByte_vector (hw : Memory.wf ip.mem = true) (hfit : la + rom.length ≤ 65536) {e : Word}
    (he : e ≠ 0#16) :
    (constructedState ip cfg rom la (some e)).readByte 0xFFFC#16 = loByte e ∧
      (constructedState ip cfg rom la (some e)).readByte 0xFFFD#16 = hiByte e := by
  have hload : (Memory.load ip.mem la rom).wf = true := Memory.wf_load rom hfit hw
  rw [State.readByte_eq, State.readByte_eq, constructedState, entryBytes_of_ne_zero he]
  exact ⟨Memory.read_load_self (a := 0xFFFC) (k := 0) _ (by simp) hload rfl,
    Memory.read_load_self (a := 0xFFFC) (k := 1) _ (by simp) hload rfl⟩

/-- Outside the reset vector, and without an entry point everywhere, memory is that of the loaded image. -/
theorem constructedState_readByte_image {a : Word}
    (h : (a ≠ 0xFFFC#16 ∧ a ≠ 0xFFFD#16) ∨ ep = none ∨ ep = some 0#16) :
    (constructedState ip cfg rom la ep).readByte a = Memory.read (Memory.load ip.mem la rom) a.toNat := by
  rw [State.readByte_eq, constructedState]
  rcases h with ⟨hlo, hhi⟩ | hnone
  · have hvector : Config.resetVector.toNat = 0xFFFC := rfl
    have hlength := entryBytes_length_le ep
    exact Memory.read_load_other _ (by bv_omega)
  · rw [entryBytes_of_none_or_zero hnone, Memory.load]

end

/-- Settles O59: the image decides between the two outcomes (`construct_refused`, `construct_of_fits`); the vector bytes lie
over the image (`constructedState_readByte_vector`), and every other byte is the image's or INIT_MEM's
(`constructedState_readByte_image`). -/
theorem constructResult : Obligations.ConstructResult := by
  intro ip cfg rom la ep hw
  refine ⟨construct_refused, fun hla hfit => ⟨_, construct_of_fits hla hfit, rfl, rfl, rfl, rfl, rfl, rfl, rfl, rfl, rfl,
    rfl, rfl, ?vector, fun a ha => ⟨?image, ?initMem⟩⟩⟩
  case vector =>
    rintro e rfl he
    exact constructedState_readByte_vector hw hfit he
  case image =>
    intro k hk v hv
    rw [constructedState_readByte_image ha, hk]
    exact Memory.read_load_self rom hfit hw hv
  case initMem =>
    intro hout
    rw [constructedState_readByte_image ha]
    exact Memory.read_load_other rom hout

/-! ## initializeCore and the fixture (R373, R375) -/

theorem initializeCore_of_uninitialized {s : State} (hr : s.runState = .uninitialized) :
    initializeCore s = .next { s with pc := s.readWord Config.resetVector, runState := .ready } := by
  simp only [initializeCore, hr]

theorem statusLegal_iff (p : Byte) : statusLegal p = true ↔ p.getLsbD 5 = true ∧ p.getLsbD 4 = false := by
  rw [statusLegal, Bool.and_eq_true, Bool.not_eq_true']

/-- Settles O60: `initializeCore` is decided by the run state (`initializeCore_of_uninitialized`, `initializeCore_refused`), and a
fixture with memory in canonical form by the two fixed bits of P (`statusLegal_iff`). -/
theorem initializeAndFixtureResult : Obligations.InitializeAndFixtureResult := by
  refine ⟨fun s hr => ?boot, fun s hr => initializeCore_refused hr,
    fun cfg a x y sp p pc mem hw => ⟨fun hp => ?legal, fun hp => ?illegal⟩⟩
  case boot => exact ⟨_, initializeCore_of_uninitialized hr, s.readWord_toNat Config.resetVector, rfl⟩
  case legal => exact if_pos ((Bool.and_eq_true _ _).mpr ⟨(statusLegal_iff p).mpr hp, hw⟩)
  case illegal => exact if_neg fun h => hp ((statusLegal_iff p).mp ((Bool.and_eq_true _ _).mp h).1)

/-! ## The state after reset (R370, R376, R47) -/

/-- Settles O19: an empty image fits at address 0 (`construct_of_fits`), and `initializeCore` is accepted in the state that
`construct` makes (`initializeCore_of_uninitialized`). -/
theorem resetIsConstructThenInitialize : Obligations.ResetIsConstructThenInitialize :=
  ⟨⟨_, construct_of_fits (by decide) (by decide), initializeCore_of_uninitialized rfl⟩, rfl, rfl, rfl, rfl, rfl⟩

end Sys2Proof.Machine
